-- ==== Sys2Proof/Word.lean ====
section
/-! DEFINITION. The machine's words (spec 00_scope.md R7, R8; 10_state.md R21, R24, R26): unsigned values of a
stated width, bit 0 least significant. Register numbers are one hexadecimal digit and are never added or shifted,
so they are indices, not bit vectors. -/

namespace Sys2Proof

/-- A general register, a memory cell, a timer, an immediate `NN` (R8, R21, R23). -/
abbrev Byte := BitVec 8

/-- An opcode, `pc`, `I`, a call-stack entry (R24, R26, R27, R70). -/
abbrev Word := BitVec 16

/-- The 12-bit address field `NNN`, and the address of a memory cell as a diagnostic reports it (R71, R170). -/
abbrev Addr := BitVec 12

/-- The 4-bit field `N` (R71). -/
abbrev Nibble := BitVec 4

/-- A register number, or a key number, 0..15 (R21, R31). -/
abbrev Reg := Fin 16

/-- `VF`, the flag register (R22). -/
abbrev VF : Reg := 15

/-- `zext_16` of a register value (R9). -/
abbrev Byte.zext (b : Byte) : Word := BitVec.zeroExtend 16 b

/-- `zext_16` of an address field (R73). -/
abbrev Addr.zext (a : Addr) : Word := BitVec.zeroExtend 16 a

end Sys2Proof
end

