-- ==== Sys2Proof/Config.lean ====
section
/-! DEFINITION. The implementation parameters of spec 00_scope.md R6. What the spec fixes for this hardware is a
constant; what it leaves OPEN is a field of `Config` (which State carries, since it is fixed at construction) or an
opaque free value, of which nothing can be proved but its type. The values of this hardware are in
Machine/Params.lean. -/

namespace Sys2Proof

/-- `ILLEGAL_MODE` (R6, R95): what an unknown opcode does. OPEN in the spec (D3); log 3. -/
inductive IllegalMode where
  /-- an unknown opcode is a reported no-op that advances `pc` by 2: the source's default -/
  | permissive
  /-- an unknown opcode raises `IllegalOpcode` -/
  | strict
deriving DecidableEq, Repr

/-- Which key `KeySelect` reports when several are pressed (R147). OPEN in the spec (D10); log 4. -/
inductive KeyPolicy where
  /-- the lowest-numbered pressed key: the spec's default for this hardware -/
  | lowest
  /-- some pressed key, chosen by the free value `Config.freeKey` -/
  | free
deriving DecidableEq, Repr

/-- `FONT` (R6, R23): 80 bytes, 5 for each digit 0 to F, top row first. -/
abbrev Font := Vector Byte 80

/-- The parameters fixed at construction (R6, R150). -/
structure Config where
  /-- columns of the framebuffer, at least 1 (R6, R33) -/
  width : Nat
  /-- rows of the framebuffer, at least 1 (R6, R33) -/
  height : Nat
  /-- R95 -/
  illegalMode : IllegalMode
  /-- R147 -/
  keyPolicy : KeyPolicy
  /-- the font that construction puts at address 0 (R23); OPEN in principle (D13), log 1 -/
  font : Font
deriving DecidableEq, Repr

namespace Config

/-- `MEM_SIZE` (R6). -/
abbrev memSize : Nat := 4096

/-- `PROG_BASE` (R6): where programs load, and the end of the reserved region. -/
abbrev progBase : Nat := 0x200

/-- `PROG_MAX` (R6): the longest program. -/
abbrev progMax : Nat := 3584

/-- `STACK_DEPTH` (R6). -/
abbrev stackDepth : Nat := 16

/-- FREE VALUE, log 5 (R122, D20): byte number `n` of the random-byte source, counted from 0, where the implementer
injected none. No body: nothing can be proved of it. -/
opaque freeByte : Nat → Byte

/-- FREE VALUE, log 4 (R147, D10): the key a `KeyPolicy.free` core would like to report for a snapshot; it is
reported only where it is a pressed key (`keySelect`). No body. -/
opaque freeKey : Vector Bool 16 → Reg

end Config

end Sys2Proof
end

