-- ==== Sys2Proof/Syntax.lean ====
section
/-! DEFINITION. The instructions of spec 30_encoding.md R72, one constructor per row of spec/opcode_table.json and in
its order. A constructor is `op` followed by the row's pattern, the spec's primary name of the instruction (R10);
its arguments are the fields the pattern names, in the order they stand in the word (R71). Every value of every
field is legal (R73), so each field has exactly the type of its values. -/

namespace Sys2Proof

inductive Instr where
  /-- `CLS`, clear the screen (R136) -/
  | op00E0
  /-- `RET`, return from subroutine (R101) -/
  | op00EE
  /-- `JP nnn` (R102) -/
  | op1NNN (nnn : Addr)
  /-- `CALL nnn` (R103) -/
  | op2NNN (nnn : Addr)
  /-- `SE Vx, nn`, skip if equal to an immediate (R104) -/
  | op3XNN (x : Reg) (nn : Byte)
  /-- `SNE Vx, nn`, skip if different from an immediate (R105) -/
  | op4XNN (x : Reg) (nn : Byte)
  /-- `SE Vx, Vy` (R106) -/
  | op5XY0 (x y : Reg)
  /-- `LD Vx, nn` (R111) -/
  | op6XNN (x : Reg) (nn : Byte)
  /-- `ADD Vx, nn` (R112) -/
  | op7XNN (x : Reg) (nn : Byte)
  /-- `LD Vx, Vy` (R113) -/
  | op8XY0 (x y : Reg)
  /-- `OR Vx, Vy` (R114) -/
  | op8XY1 (x y : Reg)
  /-- `AND Vx, Vy` (R115) -/
  | op8XY2 (x y : Reg)
  /-- `XOR Vx, Vy` (R116) -/
  | op8XY3 (x y : Reg)
  /-- `ADD Vx, Vy`, with carry out (R117) -/
  | op8XY4 (x y : Reg)
  /-- `SUB Vx, Vy` (R118) -/
  | op8XY5 (x y : Reg)
  /-- `SHR Vx, Vy` (R119) -/
  | op8XY6 (x y : Reg)
  /-- `SUBN Vx, Vy`, reverse subtract (R120) -/
  | op8XY7 (x y : Reg)
  /-- `SHL Vx, Vy` (R121) -/
  | op8XYE (x y : Reg)
  /-- `SNE Vx, Vy` (R107) -/
  | op9XY0 (x y : Reg)
  /-- `LD I, nnn` (R126) -/
  | opANNN (nnn : Addr)
  /-- `JP V0, nnn` (R108) -/
  | opBNNN (nnn : Addr)
  /-- `RND Vx, nn` (R122) -/
  | opCXNN (x : Reg) (nn : Byte)
  /-- `DRW Vx, Vy, n` (R137) -/
  | opDXYN (x y : Reg) (n : Nibble)
  /-- `SKP Vx`, skip if the key is pressed (R141) -/
  | opEX9E (x : Reg)
  /-- `SKNP Vx`, skip if the key is not pressed (R142) -/
  | opEXA1 (x : Reg)
  /-- `LD Vx, DT` (R143) -/
  | opFX07 (x : Reg)
  /-- `LD Vx, K`, wait for a key (R144) -/
  | opFX0A (x : Reg)
  /-- `LD DT, Vx` (R145) -/
  | opFX15 (x : Reg)
  /-- `LD ST, Vx` (R146) -/
  | opFX18 (x : Reg)
  /-- `ADD I, Vx` (R127) -/
  | opFX1E (x : Reg)
  /-- `LD F, Vx`, point `I` at a glyph (R128) -/
  | opFX29 (x : Reg)
  /-- `LD B, Vx`, store decimal digits (R129) -/
  | opFX33 (x : Reg)
  /-- `LD [I], Vx`, store `V0..Vx` (R130) -/
  | opFX55 (x : Reg)
  /-- `LD Vx, [I]`, load `V0..Vx` (R131) -/
  | opFX65 (x : Reg)
deriving DecidableEq, Repr

end Sys2Proof
end

