-- ==== Sys2Proof/WellFormed.lean ====
section
/-! DEFINITION. Well-formedness. An `Instr` is well-formed by its types: spec 30_encoding.md R71 and R73 give every
field every value of its width, and so do the types of Syntax.lean; there is no term for a check to refuse. What
can be ill-formed is what stands around instructions: a word that is no instruction (R72, R80), a program too long
for memory (R151), a display without pixels or a font with
another first byte (R6, D13). Each has its check here. The opcode table below is written from
R72's masks and matches, apart from the decoder (which follows R74), so that the two can be held against each other. -/

namespace Sys2Proof

/-- One row of R72's table: a word `op` is the row's instruction exactly when `op & mask = match`. -/
structure OpcodeRow where
  /-- the source's pattern, the row's mnemonic in spec/opcode_table.json -/
  pattern : String
  mask : Word
  value : Word
deriving DecidableEq, Repr

/-- "A word `op` is the instruction of a row exactly when `op & mask = match`" (R72). -/
def OpcodeRow.covers (r : OpcodeRow) (op : Word) : Bool :=
  op &&& r.mask == r.value

/-- Part of `opcodeTable` (R72). -/
def rows0to6 : List OpcodeRow :=
  [ ⟨"00E0", 0xFFFF, 0x00E0⟩,
    ⟨"00EE", 0xFFFF, 0x00EE⟩,
    ⟨"1NNN", 0xF000, 0x1000⟩,
    ⟨"2NNN", 0xF000, 0x2000⟩,
    ⟨"3XNN", 0xF000, 0x3000⟩,
    ⟨"4XNN", 0xF000, 0x4000⟩,
    ⟨"5XY0", 0xF00F, 0x5000⟩,
    ⟨"6XNN", 0xF000, 0x6000⟩ ]

/-- Part of `opcodeTable` (R72). -/
def rows7to9 : List OpcodeRow :=
  [ ⟨"7XNN", 0xF000, 0x7000⟩,
    ⟨"8XY0", 0xF00F, 0x8000⟩,
    ⟨"8XY1", 0xF00F, 0x8001⟩,
    ⟨"8XY2", 0xF00F, 0x8002⟩,
    ⟨"8XY3", 0xF00F, 0x8003⟩,
    ⟨"8XY4", 0xF00F, 0x8004⟩,
    ⟨"8XY5", 0xF00F, 0x8005⟩,
    ⟨"8XY6", 0xF00F, 0x8006⟩,
    ⟨"8XY7", 0xF00F, 0x8007⟩,
    ⟨"8XYE", 0xF00F, 0x800E⟩,
    ⟨"9XY0", 0xF00F, 0x9000⟩ ]

/-- Part of `opcodeTable` (R72). -/
def rowsAtoEX9E : List OpcodeRow :=
  [ ⟨"ANNN", 0xF000, 0xA000⟩,
    ⟨"BNNN", 0xF000, 0xB000⟩,
    ⟨"CXNN", 0xF000, 0xC000⟩,
    ⟨"DXYN", 0xF000, 0xD000⟩,
    ⟨"EX9E", 0xF0FF, 0xE09E⟩,
    ⟨"EXA1", 0xF0FF, 0xE0A1⟩ ]

/-- Part of `opcodeTable` (R72). -/
def rowsEXA1toF : List OpcodeRow :=
  [ ⟨"FX07", 0xF0FF, 0xF007⟩,
    ⟨"FX0A", 0xF0FF, 0xF00A⟩,
    ⟨"FX15", 0xF0FF, 0xF015⟩,
    ⟨"FX18", 0xF0FF, 0xF018⟩,
    ⟨"FX1E", 0xF0FF, 0xF01E⟩,
    ⟨"FX29", 0xF0FF, 0xF029⟩,
    ⟨"FX33", 0xF0FF, 0xF033⟩,
    ⟨"FX55", 0xF0FF, 0xF055⟩,
    ⟨"FX65", 0xF0FF, 0xF065⟩ ]

/-- The 34 rows of R72, in the spec's order. -/
def opcodeTable : List OpcodeRow :=
  rows0to6 ++ rows7to9 ++ rowsAtoEX9E ++ rowsEXA1toF

/-- The word is an instruction: some row covers it (R72). A word that fails is an unknown opcode (R80). -/
def isInstruction (op : Word) : Bool :=
  opcodeTable.any (·.covers op)

/-- The pattern an instruction is an instance of (R10, R72). -/
def Instr.pattern : Instr → String
  | .op00E0 => "00E0"
  | .op00EE => "00EE"
  | .op1NNN _ => "1NNN"
  | .op2NNN _ => "2NNN"
  | .op3XNN _ _ => "3XNN"
  | .op4XNN _ _ => "4XNN"
  | .op5XY0 _ _ => "5XY0"
  | .op6XNN _ _ => "6XNN"
  | .op7XNN _ _ => "7XNN"
  | .op8XY0 _ _ => "8XY0"
  | .op8XY1 _ _ => "8XY1"
  | .op8XY2 _ _ => "8XY2"
  | .op8XY3 _ _ => "8XY3"
  | .op8XY4 _ _ => "8XY4"
  | .op8XY5 _ _ => "8XY5"
  | .op8XY6 _ _ => "8XY6"
  | .op8XY7 _ _ => "8XY7"
  | .op8XYE _ _ => "8XYE"
  | .op9XY0 _ _ => "9XY0"
  | .opANNN _ => "ANNN"
  | .opBNNN _ => "BNNN"
  | .opCXNN _ _ => "CXNN"
  | .opDXYN _ _ _ => "DXYN"
  | .opEX9E _ => "EX9E"
  | .opEXA1 _ => "EXA1"
  | .opFX07 _ => "FX07"
  | .opFX0A _ => "FX0A"
  | .opFX15 _ => "FX15"
  | .opFX18 _ => "FX18"
  | .opFX1E _ => "FX1E"
  | .opFX29 _ => "FX29"
  | .opFX33 _ => "FX33"
  | .opFX55 _ => "FX55"
  | .opFX65 _ => "FX65"

/-- A program image fits the program region (R151; `PROG_MAX` of R6). -/
def programFits (bytes : List Byte) : Bool :=
  bytes.length ≤ Config.progMax

/-- The display has at least one column and one row (R6: "naturals ≥ 1"), and the font's first byte is the one the
source gives (D13). -/
def Config.wf (c : Config) : Bool :=
  1 ≤ c.width && 1 ≤ c.height && c.font[0] == 0xF0#8

end Sys2Proof
end

