-- ==== Sys2Proof/Decode.lean ====
section
/-! DEFINITION. The decoder of spec 30_encoding.md R74 (a nested switch on the word's nibbles, total on all 65536
words), the decoder of a byte sequence over it, and after them the encoder, from the same formats (R71), and the
listing syntax (R82, R83). -/

namespace Sys2Proof

/-! Fields of an opcode (R71). -/

/-- `F`, the instruction family, `op[15:12]`. -/
def opFamily (op : Word) : Nibble := op.extractLsb' 12 4

/-- A 4-bit field as a register number (R73). -/
def regOf (f : Nibble) : Reg := f.toFin

/-- `X = op[11:8]`. -/
def opX (op : Word) : Reg := regOf (op.extractLsb' 8 4)

/-- `Y = op[7:4]`. -/
def opY (op : Word) : Reg := regOf (op.extractLsb' 4 4)

/-- `N = op[3:0]`. -/
def opN (op : Word) : Nibble := op.extractLsb' 0 4

/-- `NN = op[7:0]`. -/
def opNN (op : Word) : Byte := op.extractLsb' 0 8

/-- `NNN = op[11:0]`. -/
def opNNN (op : Word) : Addr := op.extractLsb' 0 12

/-- What a word decodes to: one of the 34 instructions, or `Unknown(op)` (R74, R80). -/
inductive Decoded where
  | instr (i : Instr)
  | unknown (op : Word)
deriving DecidableEq, Repr

/-- Family 0 (R74): two exact words. -/
def decode0 (op : Word) : Decoded :=
  if op = 0x00E0#16 then .instr .op00E0
  else if op = 0x00EE#16 then .instr .op00EE
  else .unknown op

/-- Family 8 (R74): selected by `N`. -/
def decode8 (op : Word) : Decoded :=
  match (opN op).toNat with
  | 0x0 => .instr (.op8XY0 (opX op) (opY op))
  | 0x1 => .instr (.op8XY1 (opX op) (opY op))
  | 0x2 => .instr (.op8XY2 (opX op) (opY op))
  | 0x3 => .instr (.op8XY3 (opX op) (opY op))
  | 0x4 => .instr (.op8XY4 (opX op) (opY op))
  | 0x5 => .instr (.op8XY5 (opX op) (opY op))
  | 0x6 => .instr (.op8XY6 (opX op) (opY op))
  | 0x7 => .instr (.op8XY7 (opX op) (opY op))
  | 0xE => .instr (.op8XYE (opX op) (opY op))
  | _ => .unknown op

/-- Family E (R74): selected by `NN`. -/
def decodeE (op : Word) : Decoded :=
  match (opNN op).toNat with
  | 0x9E => .instr (.opEX9E (opX op))
  | 0xA1 => .instr (.opEXA1 (opX op))
  | _ => .unknown op

/-- Family F (R74): selected by `NN`. -/
def decodeF (op : Word) : Decoded :=
  match (opNN op).toNat with
  | 0x07 => .instr (.opFX07 (opX op))
  | 0x0A => .instr (.opFX0A (opX op))
  | 0x15 => .instr (.opFX15 (opX op))
  | 0x18 => .instr (.opFX18 (opX op))
  | 0x1E => .instr (.opFX1E (opX op))
  | 0x29 => .instr (.opFX29 (opX op))
  | 0x33 => .instr (.opFX33 (opX op))
  | 0x55 => .instr (.opFX55 (opX op))
  | 0x65 => .instr (.opFX65 (opX op))
  | _ => .unknown op

/-- `Decode(op)` (R74). It depends on the word alone. Exact match is the spec's D22 (log 15): `5XY0` and `9XY0` need a
zero last digit. -/
def decodeWord (op : Word) : Decoded :=
  match (opFamily op).toNat with
  | 0x0 => decode0 op
  | 0x1 => .instr (.op1NNN (opNNN op))
  | 0x2 => .instr (.op2NNN (opNNN op))
  | 0x3 => .instr (.op3XNN (opX op) (opNN op))
  | 0x4 => .instr (.op4XNN (opX op) (opNN op))
  | 0x5 => if opN op = 0#4 then .instr (.op5XY0 (opX op) (opY op)) else .unknown op
  | 0x6 => .instr (.op6XNN (opX op) (opNN op))
  | 0x7 => .instr (.op7XNN (opX op) (opNN op))
  | 0x8 => decode8 op
  | 0x9 => if opN op = 0#4 then .instr (.op9XY0 (opX op) (opY op)) else .unknown op
  | 0xA => .instr (.opANNN (opNNN op))
  | 0xB => .instr (.opBNNN (opNNN op))
  | 0xC => .instr (.opCXNN (opX op) (opNN op))
  | 0xD => .instr (.opDXYN (opX op) (opY op) (opN op))
  | 0xE => decodeE op
  | 0xF => decodeF op
  | _ => .unknown op

/-- Two consecutive bytes as one word, the byte at the lower address high (R53, R70). -/
def wordOfBytes (hi lo : Byte) : Word := hi ++ lo

/-- The high byte of a word, the one stored at the lower address (R53, R56). -/
def highByte (w : Word) : Byte := w.extractLsb' 8 8

/-- The low byte of a word. -/
def lowByte (w : Word) : Byte := w.extractLsb' 0 8

/-- Why a byte sequence does not begin with an instruction. -/
inductive DecodeError where
  /-- fewer than the two bytes of R70 -/
  | truncated
  /-- the word is an unknown opcode (R80) -/
  | unknownOpcode (op : Word)
deriving DecidableEq, Repr

/-- The instruction a byte sequence begins with, and the bytes after it (R70); total on any bytes. -/
def decodeBytes : List Byte → Except DecodeError (Instr × List Byte)
  | hi :: lo :: rest =>
    match decodeWord (wordOfBytes hi lo) with
    | .instr i => .ok (i, rest)
    | .unknown op => .error (.unknownOpcode op)
  | _ => .error .truncated

/-- The word of an opcode-table row's instruction: bit 0 of the table is bit 0 of the word, and what lies above
`nbits` is zero. Every row has 16 bits (R70). -/
def tableWord (nbits w : Nat) : Word := BitVec.ofNat 16 (w % 2 ^ nbits)

/-- The instruction the decoder reads from the bytes of a table word, laid out as memory holds them (R53). -/
def decodeTableWord (nbits w : Nat) : Option Instr :=
  match decodeBytes [highByte (tableWord nbits w), lowByte (tableWord nbits w)] with
  | .ok (i, _) => some i
  | .error _ => none

/-! The encoder: the formats of R71, high nibble first. -/

/-- A register number as a 4-bit field (R71). -/
def regField (r : Reg) : Nibble := BitVec.ofFin (w := 4) r

/-- Format `NNN` (R71). -/
def formatNNN (family : Nibble) (nnn : Addr) : Word := family ++ nnn

/-- Format `XNN` (R71). -/
def formatXNN (family : Nibble) (x : Reg) (nn : Byte) : Word := family ++ (regField x ++ nn : BitVec 12)

/-- Formats `XY` and `XYN` (R71): the last digit is the sub-opcode or `N`. -/
def formatXYN (family : Nibble) (x y : Reg) (last : Nibble) : Word :=
  family ++ (regField x ++ (regField y ++ last : BitVec 8) : BitVec 12)

/-- The word of an instruction (R71, R72). -/
def encode : Instr → Word
  | .op00E0 => 0x00E0#16
  | .op00EE => 0x00EE#16
  | .op1NNN nnn => formatNNN 0x1#4 nnn
  | .op2NNN nnn => formatNNN 0x2#4 nnn
  | .op3XNN x nn => formatXNN 0x3#4 x nn
  | .op4XNN x nn => formatXNN 0x4#4 x nn
  | .op5XY0 x y => formatXYN 0x5#4 x y 0x0#4
  | .op6XNN x nn => formatXNN 0x6#4 x nn
  | .op7XNN x nn => formatXNN 0x7#4 x nn
  | .op8XY0 x y => formatXYN 0x8#4 x y 0x0#4
  | .op8XY1 x y => formatXYN 0x8#4 x y 0x1#4
  | .op8XY2 x y => formatXYN 0x8#4 x y 0x2#4
  | .op8XY3 x y => formatXYN 0x8#4 x y 0x3#4
  | .op8XY4 x y => formatXYN 0x8#4 x y 0x4#4
  | .op8XY5 x y => formatXYN 0x8#4 x y 0x5#4
  | .op8XY6 x y => formatXYN 0x8#4 x y 0x6#4
  | .op8XY7 x y => formatXYN 0x8#4 x y 0x7#4
  | .op8XYE x y => formatXYN 0x8#4 x y 0xE#4
  | .op9XY0 x y => formatXYN 0x9#4 x y 0x0#4
  | .opANNN nnn => formatNNN 0xA#4 nnn
  | .opBNNN nnn => formatNNN 0xB#4 nnn
  | .opCXNN x nn => formatXNN 0xC#4 x nn
  | .opDXYN x y n => formatXYN 0xD#4 x y n
  | .opEX9E x => formatXNN 0xE#4 x 0x9E#8
  | .opEXA1 x => formatXNN 0xE#4 x 0xA1#8
  | .opFX07 x => formatXNN 0xF#4 x 0x07#8
  | .opFX0A x => formatXNN 0xF#4 x 0x0A#8
  | .opFX15 x => formatXNN 0xF#4 x 0x15#8
  | .opFX18 x => formatXNN 0xF#4 x 0x18#8
  | .opFX1E x => formatXNN 0xF#4 x 0x1E#8
  | .opFX29 x => formatXNN 0xF#4 x 0x29#8
  | .opFX33 x => formatXNN 0xF#4 x 0x33#8
  | .opFX55 x => formatXNN 0xF#4 x 0x55#8
  | .opFX65 x => formatXNN 0xF#4 x 0x65#8

/-- The two bytes of an instruction as memory holds them (R70, R53). -/
def encodeBytes (i : Instr) : List Byte := [highByte (encode i), lowByte (encode i)]

/-! Listing syntax (R82, R83): the spec's own presentation (D19), PRESUMED from general knowledge, log 26. Nothing of
the machine depends on it. How an immediate is written R82 leaves at "in hexadecimal": `0x` before `nn` and `nnn`, none
before `n` and in `DW hhhh`, upper-case digits at full width are DEDUCED from the listings of 95_test_vectors.md, and
one space after the mnemonic is a DESIGN CHOICE, log 26. -/

/-- One hexadecimal digit. -/
def hexChar (d : Nat) : Char := "0123456789ABCDEF".toList.getD (d % 16) '0'

/-- `count` hexadecimal digits of a number, most significant first. -/
def hexDigits : Nat → Nat → List Char
  | 0, _ => []
  | count + 1, n => hexDigits count (n / 16) ++ [hexChar n]

/-- `V` followed by the register's digit (R21). -/
def regName (r : Reg) : String := String.ofList ['V', hexChar r.val]

/-- A mnemonic and one operand. -/
def listOne (mnemonic a : String) : String := mnemonic ++ " " ++ a

/-- A mnemonic and two operands. -/
def listTwo (mnemonic a b : String) : String := mnemonic ++ " " ++ a ++ ", " ++ b

/-- `nnn` in a listing: `0x` and three digits (DEDUCED, log 26). -/
def addrText (a : Addr) : String := "0x" ++ String.ofList (hexDigits 3 a.toNat)

/-- `nn` in a listing: `0x` and two digits (DEDUCED, log 26). -/
def byteText (b : Byte) : String := "0x" ++ String.ofList (hexDigits 2 b.toNat)

/-- `n` in a listing: one bare digit (DEDUCED, log 26). -/
def nibbleText (n : Nibble) : String := String.ofList (hexDigits 1 n.toNat)

/-- The listing of an instruction (R82). -/
def Instr.listing : Instr → String
  | .op00E0 => "CLS"
  | .op00EE => "RET"
  | .op1NNN nnn => listOne "JP" (addrText nnn)
  | .op2NNN nnn => listOne "CALL" (addrText nnn)
  | .op3XNN x nn => listTwo "SE" (regName x) (byteText nn)
  | .op4XNN x nn => listTwo "SNE" (regName x) (byteText nn)
  | .op5XY0 x y => listTwo "SE" (regName x) (regName y)
  | .op6XNN x nn => listTwo "LD" (regName x) (byteText nn)
  | .op7XNN x nn => listTwo "ADD" (regName x) (byteText nn)
  | .op8XY0 x y => listTwo "LD" (regName x) (regName y)
  | .op8XY1 x y => listTwo "OR" (regName x) (regName y)
  | .op8XY2 x y => listTwo "AND" (regName x) (regName y)
  | .op8XY3 x y => listTwo "XOR" (regName x) (regName y)
  | .op8XY4 x y => listTwo "ADD" (regName x) (regName y)
  | .op8XY5 x y => listTwo "SUB" (regName x) (regName y)
  | .op8XY6 x y => listTwo "SHR" (regName x) (regName y)
  | .op8XY7 x y => listTwo "SUBN" (regName x) (regName y)
  | .op8XYE x y => listTwo "SHL" (regName x) (regName y)
  | .op9XY0 x y => listTwo "SNE" (regName x) (regName y)
  | .opANNN nnn => listTwo "LD" "I" (addrText nnn)
  | .opBNNN nnn => listTwo "JP" "V0" (addrText nnn)
  | .opCXNN x nn => listTwo "RND" (regName x) (byteText nn)
  | .opDXYN x y n => listTwo "DRW" (regName x) (regName y) ++ ", " ++ nibbleText n
  | .opEX9E x => listOne "SKP" (regName x)
  | .opEXA1 x => listOne "SKNP" (regName x)
  | .opFX07 x => listTwo "LD" (regName x) "DT"
  | .opFX0A x => listTwo "LD" (regName x) "K"
  | .opFX15 x => listTwo "LD" "DT" (regName x)
  | .opFX18 x => listTwo "LD" "ST" (regName x)
  | .opFX1E x => listTwo "ADD" "I" (regName x)
  | .opFX29 x => listTwo "LD" "F" (regName x)
  | .opFX33 x => listTwo "LD" "B" (regName x)
  | .opFX55 x => listTwo "LD" "[I]" (regName x)
  | .opFX65 x => listTwo "LD" (regName x) "[I]"

/-- The listing of a word: a data pair where it is no instruction (R83). -/
def listWord (op : Word) : String :=
  match decodeWord op with
  | .instr i => i.listing
  | .unknown w => "DW " ++ String.ofList (hexDigits 4 w.toNat)

end Sys2Proof
end

