-- ==== Sys2Proof/Machine/Params.lean ====
section
/-! DEFINITION. The values the parameters of spec 00_scope.md R6 have on this hardware. -/

namespace Sys2Proof.Machine

/-- The glyphs of digits 0 to 7 (R23). PRESUMED (general knowledge, G1), log 1, but for the first byte. -/
def fontLow : List Byte :=
  [ 0xF0, 0x90, 0x90, 0x90, 0xF0,  0x20, 0x60, 0x20, 0x20, 0x70,
    0xF0, 0x10, 0xF0, 0x80, 0xF0,  0xF0, 0x10, 0xF0, 0x10, 0xF0,
    0x90, 0x90, 0xF0, 0x10, 0x10,  0xF0, 0x80, 0xF0, 0x10, 0xF0,
    0xF0, 0x80, 0xF0, 0x90, 0xF0,  0xF0, 0x10, 0x20, 0x40, 0x40 ]

/-- The glyphs of digits 8 to F (R23). PRESUMED (general knowledge, G1), log 1. -/
def fontHigh : List Byte :=
  [ 0xF0, 0x90, 0xF0, 0x90, 0xF0,  0xF0, 0x90, 0xF0, 0x10, 0xF0,
    0xF0, 0x90, 0xF0, 0x90, 0x90,  0xE0, 0x90, 0xE0, 0x90, 0xE0,
    0xF0, 0x80, 0x80, 0x80, 0xF0,  0xE0, 0x90, 0x90, 0x90, 0xE0,
    0xF0, 0x80, 0xF0, 0x80, 0xF0,  0xF0, 0x80, 0xF0, 0x80, 0x80 ]

/-- `FONT` as every CHIP-8 interpreter carries it (R23): the default of the spec's D13, log 1. -/
def font : Font := Vector.mk (fontLow ++ fontHigh).toArray rfl

end Sys2Proof.Machine

namespace Sys2Proof.Config

/-- This hardware's parameters (R6, R150). DESIGN CHOICE, logs 3 and 4: `ILLEGAL_MODE` and `KeySelect` are OPEN in
the spec; the values here are the defaults it names. PRESUMED, log 1: 79 bytes of the font. -/
def thisCore : Config :=
  { width := 64, height := 32, illegalMode := .permissive, keyPolicy := .lowest, font := Machine.font }

end Sys2Proof.Config
end

