-- ==== Sys2Proof/Machine/State.lean ====
section
/-! DEFINITION. The state of spec 10_state.md R20, as plain data, with the fields the model itself needs to hold what
the spec calls configuration, input and output (R35); the reasons a step can stop; and the state after construction,
the machine's only reset (R36, R150, R185). -/

namespace Sys2Proof.Machine

/-- A diagnostic event: a report that does not stop the step (spec 60_exceptions.md R170). -/
inductive Diagnostic where
  /-- `UnknownOpcode(pc, op)`: a permissive core met an unknown opcode (R95). -/
  | unknownOpcode (pc op : Word)
  /-- `ReservedWrite(pc, a)`: a store of the instruction at `pc` to `a`, below 0x200, was suppressed (R54). -/
  | reservedWrite (pc : Word) (a : Addr)
deriving DecidableEq, Repr

/-- `CoreFault` (R165): the closed set of reasons a step ends with a fault. A fault changes nothing (R168): the
machine is then still in the state before the step. All three are the spec's own, so stopping on them is safe. -/
inductive Fault where
  /-- Raised by `2NNN` when 16 entries are in use; carries the address of the `2NNN` (R103, R167). Safe. -/
  | stackOverflow (pc : Word)
  /-- Raised by `00EE` when the stack is empty; carries the address of the `00EE` (R101, R167). Safe. -/
  | stackUnderflow (pc : Word)
  /-- Raised by the step in strict mode when the fetched word is an unknown opcode (R95, R167). Safe. -/
  | illegalOpcode (pc op : Word)
deriving DecidableEq, Repr

/-- Reasons to have no meaning for an instruction. No arm of `exec` answers with one: every instruction of the
table has its meaning, and the spec leaves no case of a single-threaded run undefined (93_implementation_defined.md). -/
inductive Refusal where
  /-- Raised by an arm of `exec` for an instruction without a meaning; there is none. Safe. -/
  | notModelled (mnemonic : String)
deriving DecidableEq, Repr

/-- Memory `mem` (R23): the cells that differ from what an unlisted address reads as (`Memory.initial`), by address,
strictly rising. `Memory.wf` (Machine/Ops.lean) says the form holds. -/
abbrev Memory := List Host.Cell

/-- The framebuffer (R33): `height` rows from the top, each `width` pixels from the left; `true` is 1. Its
concatenation is the spec's row-major sequence. -/
abbrev Framebuffer := List (List Bool)

/-- The random-byte source the core holds (R122, R158). MODEL's own, log 5: bytes an implementer injected are
delivered in order, after them the free bytes `Config.freeByte`. -/
structure RandomSource where
  /-- injected bytes not yet drawn, next first -/
  injected : List Byte
  /-- how many bytes have been drawn -/
  drawn : Nat
deriving DecidableEq, Repr

/-- Everything the spec gives the core (R20), then the model's own fields. -/
structure State where
  /-- memory, 4096 cells (R23) -/
  mem : Memory
  /-- general registers `V0..VF` (R21, R22) -/
  V : Vector Byte 16
  /-- index register (R26) -/
  I : Word
  /-- program counter: the address of the next instruction to fetch, and, in the execute phase, of the instruction
  itself (R24) -/
  pc : Word
  /-- call stack: 16 entries, of which `stack[0]..stack[sp-1]` are in use (R27) -/
  stack : Vector Word 16
  /-- number of stack entries in use, 0..16 (R27) -/
  sp : Fin 17
  /-- delay timer (R29) -/
  delay : Byte
  /-- sound timer (R30) -/
  sound : Byte
  /-- keypad snapshot: key `k` is pressed (R31) -/
  keypad : Vector Bool 16
  /-- framebuffer (R33) -/
  fb : Framebuffer
  /-- redraw flag (R32) -/
  redraw : Bool
  /-- beep flag (R34) -/
  beep : Bool
  /-- MODEL's own: the parameters fixed at construction (R6, R150); nothing writes them (logs 1, 3, 4, 17) -/
  cfg : Config
  /-- MODEL's own: the random-byte source (R158); log 5 -/
  random : RandomSource
  /-- MODEL's own: the events of the latest completed step, oldest first (R170); log 6 -/
  diagnostics : List Diagnostic
deriving DecidableEq, Repr

/-- `new(width, height)` (R150) with the other parameters of R6 and an injected random source (R158): the state of
R36. The spec gives `mem`, `pc` and (derived) `sp`; every other value is DESIGN CHOICE (the spec's own D12), log 2. -/
def State.new (cfg : Config) (injected : List Byte) : State where
  mem := []
  V := Vector.replicate 16 0#8
  I := 0#16
  pc := 0x0200#16
  stack := Vector.replicate 16 0#16
  sp := 0
  delay := 0#8
  sound := 0#8
  keypad := Vector.replicate 16 false
  fb := List.replicate cfg.height (List.replicate cfg.width false)
  redraw := false
  beep := false
  cfg := cfg
  random := { injected := injected, drawn := 0 }
  diagnostics := []

/-- The machine right after reset (R36, R185, R186): construction with this hardware's parameters and no injected
random bytes. -/
def State.reset : State := State.new Config.thisCore []

end Sys2Proof.Machine
end

