-- ==== Sys2Proof/Machine/Ops.lean ====
section
/-! DEFINITION. The named operations every meaning is written with (spec 00_scope.md R9): one update per field of
State, memory reads and writes, the stack, the random-byte source, diagnostics, faults, the `pc` update, the timer
phase and the unknown opcode. -/

namespace Sys2Proof.Machine

/-- What a meaning and a step answer. -/
abbrev Result := Host.Outcome State Fault Refusal

/-! One update per field. -/

def State.setMem (s : State) (m : Memory) : State := { s with mem := m }
def State.setV (s : State) (v : Vector Byte 16) : State := { s with V := v }
def State.setI (s : State) (i : Word) : State := { s with I := i }
def State.setPc (s : State) (p : Word) : State := { s with pc := p }
def State.setStack (s : State) (st : Vector Word 16) (n : Fin 17) : State := { s with stack := st, sp := n }
def State.setDelay (s : State) (b : Byte) : State := { s with delay := b }
def State.setSound (s : State) (b : Byte) : State := { s with sound := b }
def State.setKeys (s : State) (k : Vector Bool 16) : State := { s with keypad := k }
def State.setFb (s : State) (f : Framebuffer) : State := { s with fb := f }
def State.setRedraw (s : State) (b : Bool) : State := { s with redraw := b }
def State.setBeep (s : State) (b : Bool) : State := { s with beep := b }
def State.setRandom (s : State) (r : RandomSource) : State := { s with random := r }
def State.setDiagnostics (s : State) (d : List Diagnostic) : State := { s with diagnostics := d }

/-! General registers (R9, R21): none is hardwired. -/

/-- `V[r]`. -/
def State.reg (s : State) (r : Reg) : Byte := s.V[r]

/-- `V[r] <- b`. -/
def State.setReg (s : State) (r : Reg) (b : Byte) : State := s.setV (s.V.set r b)

/-! Memory (R23, R52, R54). -/

/-- What an unlisted address reads as: the contents after construction, "memory zero-filled except font" (R23). -/
def Memory.initial (font : Font) (a : Nat) : Byte := if h : a < 80 then font[a] else 0#8

/-- The cell at address `a`. -/
def Memory.read (font : Font) : Memory → Nat → Byte
  | [], a => Memory.initial font a
  | (b, v) :: rest, a => if a = b then v else Memory.read font rest a

/-- A cell in front of the rest, unless it holds what an unlisted address reads as. -/
def Memory.put (font : Font) (a : Nat) (v : Byte) (rest : Memory) : Memory :=
  if v = Memory.initial font a then rest else (a, v) :: rest

/-- The memory with `v` at address `a`, in canonical form. -/
def Memory.write (font : Font) : Memory → Nat → Byte → Memory
  | [], a, v => Memory.put font a v []
  | (b, w) :: rest, a, v =>
    if a < b then Memory.put font a v ((b, w) :: rest)
    else if a = b then Memory.put font a v rest
    else (b, w) :: Memory.write font rest a v

/-- The canonical form from address `lo` up: addresses rise, lie in the 4096 cells, and no cell holds what an unlisted
address reads as. -/
def Memory.wfFrom (font : Font) (lo : Nat) : Memory → Bool
  | [] => true
  | (a, v) :: rest =>
    lo ≤ a && a < Config.memSize && v != Memory.initial font a && Memory.wfFrom font (a + 1) rest

/-- The canonical form of memory. -/
def Memory.wf (font : Font) (m : Memory) : Bool := Memory.wfFrom font 0 m

/-- `mem[a]`, for `a` below 4096 (R23). -/
def State.byteAt (s : State) (a : Nat) : Byte := s.mem.read s.cfg.font a

/-- The state's memory is in canonical form. -/
def State.memWf (s : State) : Bool := s.mem.wf s.cfg.font

/-- The cell an address selects: the memory drops the upper address bits (R52). The reduction is the spec's own D4,
log 8. -/
def cellOf (addr : Nat) : Nat := addr % Config.memSize

/-- `MemRead(addr, 1)` (R52). -/
def State.memRead (s : State) (addr : Nat) : Byte := s.byteAt (cellOf addr)

/-- A direct write of one cell, past the reserved-region check: the host's load (R55). -/
def State.poke (s : State) (addr : Nat) (v : Byte) : State :=
  s.setMem (s.mem.write s.cfg.font (cellOf addr) v)

/-- `emit` (R9, R170): one more event of this step. -/
def State.emit (s : State) (d : Diagnostic) : State := s.setDiagnostics (s.diagnostics ++ [d])

/-- `MemWrite(addr, 1, v)` (R54): below 0x200 the write is suppressed and reported. The suppression is the spec's own
D7, log 10. -/
def State.memWrite (s : State) (addr : Nat) (v : Byte) : State :=
  if cellOf addr < Config.progBase then s.emit (.reservedWrite s.pc (BitVec.ofNat 12 (cellOf addr)))
  else s.poke addr v

/-- Consecutive `MemWrite`s from `addr` upward, in order (R56, R129, R130). -/
def State.storeBytes (s : State) (addr : Nat) : List Byte → State
  | [] => s
  | b :: bs => State.storeBytes (s.memWrite addr b) (addr + 1) bs

/-- Consecutive direct writes from `addr` upward (R151). -/
def State.pokeBytes (s : State) (addr : Nat) : List Byte → State
  | [] => s
  | b :: bs => State.pokeBytes (s.poke addr b) (addr + 1) bs

/-- `MemRead(pc, 2)`, the fetch (R53, R91): big-endian, each byte address reduced on its own. -/
def State.fetchWord (s : State) : Word :=
  wordOfBytes (s.memRead s.pc.toNat) (s.memRead (s.pc.toNat + 1))

/-! Faults (R165 to R168, R174): nothing is saved, no mode changes, control goes nowhere. -/

/-- `raise`: the step ends with the fault and changes nothing (R96, R168). The one operation every fault goes through. -/
def raise (f : Fault) : Result := .fault f

/-! The program counter (R25): all additions are modulo 65536 (the spec's own D6, log 9). -/

/-- The default advance `pc <- pc + 2` (R93). -/
def State.advance (s : State) : State := s.setPc (s.pc + 2#16)

/-- "Skip": `pc <- pc + 4` if the condition holds, else `pc <- pc + 2` (R100, R104). -/
def State.skipIf (s : State) (c : Bool) : State := if c then s.setPc (s.pc + 4#16) else s.advance

/-! The call stack (R27, R28). -/

/-- `Push(v)`, then go on: `StackOverflow` when 16 entries are in use (R28). -/
def State.push (s : State) (v : Word) (k : State → Result) : Result :=
  if h : s.sp.val < Config.stackDepth then
    k (s.setStack (s.stack.set s.sp.val v h) ⟨s.sp.val + 1, Nat.succ_lt_succ h⟩)
  else raise (.stackOverflow s.pc)

/-- `Pop()`, then go on with the popped value: `StackUnderflow` when the stack is empty (R28). The old entry stays in
`stack`, dead (R27). -/
def State.pop (s : State) (k : Word → State → Result) : Result :=
  if h : s.sp.val = 0 then raise (.stackUnderflow s.pc)
  else
    have hlt : s.sp.val - 1 < 16 := by omega
    k (s.stack[s.sp.val - 1]) (s.setStack s.stack ⟨s.sp.val - 1, Nat.lt_succ_of_lt hlt⟩)

/-! The random-byte source (R122, R158). -/

/-- The byte the source delivers next: an injected one, else a free one (log 5). -/
def RandomSource.peek (r : RandomSource) : Byte :=
  match r.injected with
  | b :: _ => b
  | [] => Config.freeByte r.drawn

/-- The source after one draw. -/
def RandomSource.drop (r : RandomSource) : RandomSource :=
  { injected := r.injected.tail, drawn := r.drawn + 1 }

/-! The timer phase and the completed step (R94). -/

/-- "If `delay>0` decrement it; if `sound>0` decrement it, emitting one beep signal exactly when it transitions from
1 to 0" (R94, R29, R30, R34). -/
def tickDelay (d : Byte) : Byte := if d = 0#8 then 0#8 else d - 1#8

/-- The timer phase (R94). -/
def State.timerPhase (s : State) : State :=
  ((s.setBeep (s.beep || s.sound == 1#8)).setDelay (tickDelay s.delay)).setSound (tickDelay s.sound)

/-- The end of a step: the timer phase runs after every execute phase that raised no fault (R94, R96; the spec's own
D2 and D11, logs 13 and 7). -/
def completeStep : Result → Result
  | .next s => .next s.timerPhase
  | .fault f => .fault f
  | .refused r => .refused r

/-! The unknown opcode (R95). -/

/-- The execute phase of a word that is no instruction (R95): a reported no-op, or `IllegalOpcode`, as the
configuration says (log 3). -/
def execUnknown (op : Word) (s : State) : Result :=
  match s.cfg.illegalMode with
  | .permissive => .next (s.emit (.unknownOpcode s.pc op)).advance
  | .strict => raise (.illegalOpcode s.pc op)

/-! Numeric codes (R166; the spec's own D14, log 20). -/

/-- Fault 1, 2, 3 (R166). -/
def Fault.code : Fault → Nat
  | .stackOverflow _ => 1
  | .stackUnderflow _ => 2
  | .illegalOpcode _ _ => 3

/-- Diagnostic 1, 2 (R166). -/
def Diagnostic.code : Diagnostic → Nat
  | .unknownOpcode _ _ => 1
  | .reservedWrite _ _ => 2

end Sys2Proof.Machine
end

