-- ==== Sys2Proof/Machine/Flags.lean ====
section
/-! DEFINITION. Every value an instruction writes to `VF` as a flag (spec 10_state.md R22, 42_alu.md R123), and the
order in which flag and result are written (R110). -/

namespace Sys2Proof.Machine

/-- A flag as the byte `VF` receives: 1 or 0 (R22). -/
def flagByte (b : Bool) : Byte := if b then 1#8 else 0#8

/-- The carry out of `a + b`: 1 if the 9-bit sum exceeds 255 (R117). -/
def carryFlag (a b : Byte) : Byte := flagByte (255 < a.toNat + b.toNat)

/-- The not-borrow of `a - b`: 0 if `a < b`, else 1 (R118, R120). -/
def notBorrowFlag (a b : Byte) : Byte := flagByte (b.toNat ≤ a.toNat)

/-- The bit a right shift moves out: bit 0 before the shift (R119). -/
def shiftOutLow (v : Byte) : Byte := flagByte (v.getLsbD 0)

/-- The bit a left shift moves out: bit 7 before the shift (R121). -/
def shiftOutHigh (v : Byte) : Byte := flagByte (v.getLsbD 7)

/-- The collision flag of `DXYN` (R137). -/
def collisionFlag (hit : Bool) : Byte := flagByte hit

/-- Flag first, result second, so that a result whose register is `VF` replaces the flag (R110). The order is the
spec's own D8, log 11. -/
def State.setFlagThen (s : State) (flag : Byte) (x : Reg) (result : Byte) : State :=
  (s.setReg VF flag).setReg x result

end Sys2Proof.Machine
end

