-- ==== Sys2Proof/Machine/Operands.lean ====
section
/-! DEFINITION. Operand forms: the one addressing mode (spec 43_index_memory.md R125), the key number
(45_keypad_timers.md R140, R147), the decimal digits of `FX33` (R129), the register block of `FX55` and `FX65`
(R130, R131), and jump targets (41_flow.md R108). Immediates and register operands are plain fields (R73). -/

namespace Sys2Proof.Machine

/-- The address `I + offset`, formed on naturals; the memory reduces it (R125, R52). -/
def State.indexAddr (s : State) (offset : Nat) : Nat := s.I.toNat + offset

/-- `I <- (I + n) mod 65536` (R26, R125). -/
def State.advanceI (s : State) (n : Nat) : State := s.setI (s.I + BitVec.ofNat 16 n)

/-- The target of `BNNN`: `zext_16(NNN) + zext_16(V[0])` (R108). -/
def State.offsetTarget (s : State) (nnn : Addr) : Word := nnn.zext + (s.reg 0).zext

/-- The key a register selects: its low 4 bits (R140). The reduction is the spec's own D9, log 12. -/
def keyNumber (v : Byte) : Reg := regOf (v.extractLsb' 0 4)

/-- `keypad[k]` for the key a register selects (R141, R142). -/
def State.keyPressed (s : State) (x : Reg) : Bool := s.keypad[keyNumber (s.reg x)]

/-- The lowest-numbered pressed key, counting from `k`, among the states of keys `k`, `k + 1`, ... -/
def lowestPressedFrom (k : Nat) : List Bool → Option Nat
  | [] => none
  | b :: bs => if b then some k else lowestPressedFrom (k + 1) bs

/-- The key a core reports when the lowest pressed key is `low` (R147): that key, or under the free policy the key
`Config.freeKey` names, provided it is pressed (log 4). -/
def chooseKey (p : KeyPolicy) (keypad : Vector Bool 16) (low : Reg) : Reg :=
  match p with
  | .lowest => low
  | .free => if keypad[Config.freeKey keypad] then Config.freeKey keypad else low

/-- `KeySelect(keypad)` (R147): none exactly when no key is pressed, otherwise a pressed key. -/
def keySelect (p : KeyPolicy) (keypad : Vector Bool 16) : Option Reg :=
  match lowestPressedFrom 0 keypad.toList with
  | none => none
  | some k => some (chooseKey p keypad (Fin.ofNat 16 k))

/-- The hundreds, tens and ones digits of a byte, most significant first (R129). -/
def decimalDigits (v : Byte) : List Byte :=
  [BitVec.ofNat 8 (v.toNat / 100), BitVec.ofNat 8 (v.toNat / 10 % 10), BitVec.ofNat 8 (v.toNat % 10)]

/-- How many registers the block `V[0]..V[X]` has (R130): both ends are included. -/
def blockSize (x : Reg) : Nat := x.val + 1

/-- The block `V[0]..V[X]`, lowest register first (R130). -/
def State.registerBlock (s : State) (x : Reg) : List Byte := s.V.toList.take (blockSize x)

/-- The registers after `V[i] <- MemRead(I + i, 1)` for `i` from 0 to `X` (R131); those above `X` are unchanged. -/
def State.loadedBlock (s : State) (x : Reg) : Vector Byte 16 :=
  Vector.ofFn fun i => if i ≤ x then s.memRead (s.indexAddr i.val) else s.reg i

/-- The `N` bytes of a sprite, top row first (R135, R137). -/
def State.spriteRows (s : State) (n : Nibble) : List Byte :=
  (List.range n.toNat).map fun row => s.memRead (s.indexAddr row)

end Sys2Proof.Machine
end

