-- ==== Sys2Proof/Machine/Alu.lean ====
section
/-! DEFINITION. Register load, arithmetic, logic, shift and random (spec 42_alu.md). Operands are read before any
write (R110); every instruction here ends with `pc <- pc + 2`. -/

namespace Sys2Proof.Machine

/-- `V[X] <- b`, then the default advance. -/
def writeResult (x : Reg) (b : Byte) (s : State) : Result := .next (s.setReg x b).advance

/-- `VF <- flag`, `V[X] <- b`, then the default advance (R110). -/
def writeFlagged (flag : Byte) (x : Reg) (b : Byte) (s : State) : Result := .next (s.setFlagThen flag x b).advance

/-- `6XNN`, "Vx = NN" (R111). -/
def exec6XNN (x : Reg) (nn : Byte) (s : State) : Result := writeResult x nn s

/-- `7XNN`, "Vx = Vx+NN (mod 256)"; the carry is discarded (R112). -/
def exec7XNN (x : Reg) (nn : Byte) (s : State) : Result := writeResult x (s.reg x + nn) s

/-- `8XY0`, "Vx=Vy" (R113). -/
def exec8XY0 (x y : Reg) (s : State) : Result := writeResult x (s.reg y) s

/-- `8XY1`, "Vx = Vx|Vy"; `VF` is not written (R114). -/
def exec8XY1 (x y : Reg) (s : State) : Result := writeResult x (s.reg x ||| s.reg y) s

/-- `8XY2`, "Vx = Vx&Vy" (R115). -/
def exec8XY2 (x y : Reg) (s : State) : Result := writeResult x (s.reg x &&& s.reg y) s

/-- `8XY3`, "Vx = Vx^Vy" (R116). -/
def exec8XY3 (x y : Reg) (s : State) : Result := writeResult x (s.reg x ^^^ s.reg y) s

/-- `8XY4`, "VF=1 if sum>255 else 0; Vx=sum mod 256" (R117). -/
def exec8XY4 (x y : Reg) (s : State) : Result :=
  writeFlagged (carryFlag (s.reg x) (s.reg y)) x (s.reg x + s.reg y) s

/-- `8XY5`, "VF=0 if Vx<Vy (borrow) else 1; Vx=(Vx-Vy) mod 256" (R118). -/
def exec8XY5 (x y : Reg) (s : State) : Result :=
  writeFlagged (notBorrowFlag (s.reg x) (s.reg y)) x (s.reg x - s.reg y) s

/-- `8XY6`, "VF=Vy&1 (LSB before shift); Vx=Vy>>1"; `V[Y]` itself is not written (R119, C11). -/
def exec8XY6 (x y : Reg) (s : State) : Result :=
  writeFlagged (shiftOutLow (s.reg y)) x (s.reg y >>> 1) s

/-- `8XY7`, "VF=0 if Vy<Vx else 1; Vx=(Vy-Vx) mod 256" (R120). -/
def exec8XY7 (x y : Reg) (s : State) : Result :=
  writeFlagged (notBorrowFlag (s.reg y) (s.reg x)) x (s.reg y - s.reg x) s

/-- `8XYE`, "VF=Vy>>7 (MSB before shift); Vx=Vy=(Vy<<1) mod 256": both registers receive the shifted value, `V[Y]`
last (R121, C11). -/
def exec8XYE (x y : Reg) (s : State) : Result :=
  .next (((s.setFlagThen (shiftOutHigh (s.reg y)) x (s.reg y <<< 1)).setReg y (s.reg y <<< 1)).advance)

/-- `CXNN`, "Vx = random_byte() & NN": exactly one byte is drawn (R122). -/
def execCXNN (x : Reg) (nn : Byte) (s : State) : Result :=
  writeResult x (s.random.peek &&& nn) (s.setRandom s.random.drop)

end Sys2Proof.Machine
end

