-- ==== Sys2Proof/Machine/Display.lean ====
section
/-! DEFINITION. The framebuffer's operations and the display instructions (spec 44_display.md). The screen is a torus:
every pixel wraps on its own (R135). -/

namespace Sys2Proof.Machine

/-- `fb[x, y]` (R33). -/
def Framebuffer.get (f : Framebuffer) (x y : Nat) : Bool := (f.getD y []).getD x false

/-- `fb[x, y] <- b` (R9). -/
def Framebuffer.set (f : Framebuffer) (x y : Nat) (b : Bool) : Framebuffer := f.modify y fun row => row.set x b

/-- A framebuffer of `width` by `height` zeros. -/
def Framebuffer.blank (width height : Nat) : Framebuffer := List.replicate height (List.replicate width false)

/-- The framebuffer has `height` rows of `width` pixels (R33). -/
def Framebuffer.wf (width height : Nat) (f : Framebuffer) : Bool :=
  f.length == height && f.all (fun row => row.length == width)

/-- What a draw carries from pixel to pixel: the framebuffer so far, and whether a pixel went from 1 to 0 (R137). -/
structure Canvas where
  fb : Framebuffer
  collision : Bool
deriving DecidableEq, Repr

/-- One set sprite bit at `(x, y)`, taken modulo the screen: the pixel is inverted, and one that was 1 is a collision
(R137). -/
def drawPixel (c : Config) (x y : Nat) (k : Canvas) : Canvas :=
  let old := k.fb.get (x % c.width) (y % c.height)
  { fb := k.fb.set (x % c.width) (y % c.height) (!old), collision := k.collision || old }

/-- One sprite row at `(x, y)`, columns in ascending order; bit 7 is column 0 (R135, R137). -/
def drawRow (c : Config) (x y : Nat) (b : Byte) (k : Canvas) : Canvas :=
  (List.range 8).foldl (fun k col => if b.getLsbD (7 - col) then drawPixel c (x + col) y k else k) k

/-- Sprite rows from `(x, y)` downward, in ascending order (R137; pixel order is the spec's own D18, log 17). -/
def drawRows (c : Config) (x y : Nat) : List Byte → Canvas → Canvas
  | [], k => k
  | b :: bs, k => drawRows c x (y + 1) bs (drawRow c x y b k)

/-- The canvas after the sprite of `DXYN` (R137): coordinates are the register values before any write. -/
def State.drawSprite (s : State) (x y : Reg) (n : Nibble) : Canvas :=
  drawRows s.cfg (s.reg x).toNat (s.reg y).toNat (s.spriteRows n) { fb := s.fb, collision := false }

/-- `00E0`, "Clear framebuffer to 0; set redraw flag; PC+=2" (R136). -/
def exec00E0 (s : State) : Result :=
  .next ((s.setFb (Framebuffer.blank s.cfg.width s.cfg.height)).setRedraw true).advance

/-- `DXYN`: XOR the `N`-row sprite at `I` onto the screen at `(V[X], V[Y])`, `VF` = collision, set the redraw flag
(R137). -/
def execDXYN (x y : Reg) (n : Nibble) (s : State) : Result :=
  let k := s.drawSprite x y n
  .next (((s.setFb k.fb).setReg VF (collisionFlag k.collision)).setRedraw true).advance

end Sys2Proof.Machine
end

