-- ==== Sys2Proof/Machine/Flow.lean ====
section
/-! DEFINITION. Control transfer (spec 41_flow.md). None of these writes a `V` register, `I`, memory, the framebuffer
or a timer (R100). -/

namespace Sys2Proof.Machine

/-- `00EE`, "PC = pop(stack) + 2" (R101). -/
def exec00EE (s : State) : Result := s.pop fun v t => .next (t.setPc (v + 2#16))

/-- `1NNN`, "PC = NNN (no advance)" (R102). -/
def exec1NNN (nnn : Addr) (s : State) : Result := .next (s.setPc nnn.zext)

/-- `2NNN`, push the address of this instruction, then `PC = NNN` (R103). -/
def exec2NNN (nnn : Addr) (s : State) : Result := s.push s.pc fun t => .next (t.setPc nnn.zext)

/-- `3XNN`, skip if `V[X] = NN` (R104). -/
def exec3XNN (x : Reg) (nn : Byte) (s : State) : Result := .next (s.skipIf (s.reg x == nn))

/-- `4XNN`, skip if `V[X] ≠ NN` (R105). -/
def exec4XNN (x : Reg) (nn : Byte) (s : State) : Result := .next (s.skipIf (s.reg x != nn))

/-- `5XY0`, skip if `V[X] = V[Y]` (R106). -/
def exec5XY0 (x y : Reg) (s : State) : Result := .next (s.skipIf (s.reg x == s.reg y))

/-- `9XY0`, skip if `V[X] ≠ V[Y]` (R107). -/
def exec9XY0 (x y : Reg) (s : State) : Result := .next (s.skipIf (s.reg x != s.reg y))

/-- `BNNN`, "PC = NNN + V0" (R108). -/
def execBNNN (nnn : Addr) (s : State) : Result := .next (s.setPc (s.offsetTarget nnn))

end Sys2Proof.Machine
end

