-- ==== Sys2Proof/Machine/IndexMemory.lean ====
section
/-! DEFINITION. Index register and memory instructions (spec 43_index_memory.md). None can fault, none writes `VF` as
a flag; every one ends with `pc <- pc + 2`. -/

namespace Sys2Proof.Machine

/-- `ANNN`, "I=NNN" (R126). -/
def execANNN (nnn : Addr) (s : State) : Result := .next (s.setI nnn.zext).advance

/-- `FX1E`, "I = I + Vx", modulo 65536 (the spec's own D5, log 9); `VF` is not written (R127). -/
def execFX1E (x : Reg) (s : State) : Result := .next (s.setI (s.I + (s.reg x).zext)).advance

/-- `FX29`, "I = Vx * 5 (address of built-in font glyph for digit Vx)": the whole 8-bit value is multiplied (R128). -/
def execFX29 (x : Reg) (s : State) : Result := .next (s.setI ((s.reg x).zext * 5#16)).advance

/-- `FX33`, the decimal digits of `V[X]` to `I`, `I + 1`, `I + 2`; `I` is unchanged (R129). -/
def execFX33 (x : Reg) (s : State) : Result :=
  .next (s.storeBytes (s.indexAddr 0) (decimalDigits (s.reg x))).advance

/-- `FX55`, "memory[I..I+X] = V0..Vx; I := I+X+1" (R130). -/
def execFX55 (x : Reg) (s : State) : Result :=
  .next ((s.storeBytes (s.indexAddr 0) (s.registerBlock x)).advanceI (blockSize x)).advance

/-- `FX65`, "V0..Vx = memory[I..I+X]; I := I+X+1" (R131). -/
def execFX65 (x : Reg) (s : State) : Result :=
  .next ((s.setV (s.loadedBlock x)).advanceI (blockSize x)).advance

end Sys2Proof.Machine
end

