-- ==== Sys2Proof/Machine/KeypadTimers.lean ====
section
/-! DEFINITION. Keypad and timer instructions (spec 45_keypad_timers.md). None can fault and none writes `VF` as a
flag; the core never changes the keypad (R31, D30). -/

namespace Sys2Proof.Machine

/-- `EX9E`, "skip if keypad[Vx] pressed" (R141). -/
def execEX9E (x : Reg) (s : State) : Result := .next (s.skipIf (s.keyPressed x))

/-- `EXA1`, "skip if keypad[Vx] not pressed" (R142). -/
def execEXA1 (x : Reg) (s : State) : Result := .next (s.skipIf (!s.keyPressed x))

/-- `FX07`, "Vx = delay", the value before this step's timer phase (R143). -/
def execFX07 (x : Reg) (s : State) : Result := .next (s.setReg x s.delay).advance

/-- `FX0A`: with no key pressed nothing changes and `pc` stays; otherwise `V[X]` is the key's number (R144, R147). -/
def execFX0A (x : Reg) (s : State) : Result :=
  match keySelect s.cfg.keyPolicy s.keypad with
  | none => .next s
  | some k => .next (s.setReg x (BitVec.ofNat 8 k.val)).advance

/-- `FX15`, "delay = Vx" (R145). -/
def execFX15 (x : Reg) (s : State) : Result := .next (s.setDelay (s.reg x)).advance

/-- `FX18`, "sound = Vx" (R146). -/
def execFX18 (x : Reg) (s : State) : Result := .next (s.setSound (s.reg x)).advance

end Sys2Proof.Machine
end

