-- ==== Sys2Proof/Machine/Step.lean ====
section
/-! DEFINITION. The one transition the core makes (spec 40_step_cycle.md R90): fetch, decode, execute, timers. -/

namespace Sys2Proof.Machine

/-- "Exactly one CPU cycle" (R90): the events of the last step are forgotten (R170), the word at `pc` is fetched and
decoded (R91, R92), the instruction or the unknown opcode is executed (R93, R95), and the timer phase ends a step
that raised no fault (R94, R96). -/
def step (s : State) : Host.Outcome State Fault Refusal :=
  match decodeWord s.fetchWord with
  | .instr i => completeStep (exec i (s.setDiagnostics []))
  | .unknown op => completeStep (execUnknown op (s.setDiagnostics []))

/-- `s` with an opcode-table word's two bytes where `step` fetches next, whatever stood there (R53, R55). -/
def State.withFetchWord (s : State) (nbits w : Nat) : State :=
  s.pokeBytes s.pc.toNat [highByte (tableWord nbits w), lowByte (tableWord nbits w)]

end Sys2Proof.Machine
end

