-- ==== Sys2Proof/Machine/HostOps.lean ====
section
/-! DEFINITION. What the host can do to the core between steps (spec 47_host_operations.md R150 to R161). Each
operation and each step is one indivisible transition, and the host orders them as it likes (the spec's own D26,
log 24). Construction is `State.new`. -/

namespace Sys2Proof.Machine

/-- The one way a load fails (R171). -/
inductive LoadFailure where
  /-- more than 3584 bytes; nothing changes -/
  | programTooLarge
deriving DecidableEq, Repr

/-- Load failure 1 (R166). -/
def LoadFailure.code : LoadFailure → Nat
  | .programTooLarge => 1

/-- `loadProgram(bytes)` (R151): the bytes from 0x200 upward, nothing else; or `ProgramTooLarge` and no change. -/
def loadProgram (bytes : List Byte) (s : State) : Except LoadFailure State :=
  if programFits bytes then .ok (s.pokeBytes Config.progBase bytes) else .error .programTooLarge

/-- `setKeypad(bool[16])` (R153): all 16 states at once, nothing else. -/
def setKeypad (snapshot : Vector Bool 16) (s : State) : State := s.setKeys snapshot

/-- `framebuffer()` (R154): the pixel cells in row-major order. -/
def framebuffer (s : State) : List Bool := s.fb.flatten

/-- The pixel query (R155): coordinates wrap. -/
def pixelAt (x y : Nat) (s : State) : Bool := s.fb.get (x % s.cfg.width) (y % s.cfg.height)

/-- `getRedraw()` (R156). -/
def getRedraw (s : State) : Bool := s.redraw

/-- `clearRedraw()` (R156). -/
def clearRedraw (s : State) : State := s.setRedraw false

/-- `takeRedrawFlag()` (R156): the value and the core with the flag cleared. -/
def takeRedrawFlag (s : State) : Bool × State := (getRedraw s, clearRedraw s)

/-- `pendingBeep()` (R157): the value and the core with the signal cleared. -/
def pendingBeep (s : State) : Bool × State := (s.beep, s.setBeep false)

/-- One operation of the host on a constructed core (R160, R161). -/
inductive HostOp where
  | loadProgram (bytes : List Byte)
  | step
  | setKeypad (snapshot : Vector Bool 16)
  | framebuffer
  | pixelAt (x y : Nat)
  | getRedraw
  | clearRedraw
  | takeRedrawFlag
  | pendingBeep
deriving DecidableEq, Repr

/-- What the host gets back (R160). -/
inductive HostReply where
  /-- the operation returns nothing, or "ok" -/
  | done
  /-- the load failed (R151) -/
  | loadFailed (f : LoadFailure)
  /-- the step completed, with its diagnostics in emission order (R152, R170) -/
  | completed (events : List Diagnostic)
  /-- the step reported a fault (R152) -/
  | faulted (f : Fault)
  /-- the model has no meaning for the instruction; no step answers this -/
  | refused (r : Refusal)
  /-- the framebuffer, row-major (R154) -/
  | pixels (cells : List Bool)
  /-- a pixel or a flag (R155, R156, R157) -/
  | bit (b : Bool)
deriving DecidableEq, Repr

/-- The host's call of `step()` (R152): a fault leaves every item of state exactly as it was (R168), and the host may
call again (R169). -/
def callStep (s : State) : State × HostReply :=
  match step s with
  | .next t => (t, .completed t.diagnostics)
  | .fault f => (s, .faulted f)
  | .refused r => (s, .refused r)

/-- The host's call of `loadProgram` (R151). -/
def callLoad (bytes : List Byte) (s : State) : State × HostReply :=
  match loadProgram bytes s with
  | .ok t => (t, .done)
  | .error f => (s, .loadFailed f)

/-- One host operation: the core afterwards and the reply (R160). -/
def hostCall (op : HostOp) (s : State) : State × HostReply :=
  match op with
  | .loadProgram bytes => callLoad bytes s
  | .step => callStep s
  | .setKeypad snapshot => (setKeypad snapshot s, .done)
  | .framebuffer => (s, .pixels (framebuffer s))
  | .pixelAt x y => (s, .bit (pixelAt x y s))
  | .getRedraw => (s, .bit (getRedraw s))
  | .clearRedraw => (clearRedraw s, .done)
  | .takeRedrawFlag => ((takeRedrawFlag s).2, .bit (takeRedrawFlag s).1)
  | .pendingBeep => ((pendingBeep s).2, .bit (pendingBeep s).1)

/-- A whole session: the operations in the order the host performs them (R60(c), D26), and every reply. -/
def runSession : List HostOp → State → State × List HostReply
  | [], s => (s, [])
  | op :: ops, s =>
    let (t, r) := hostCall op s
    let (u, rs) := runSession ops t
    (u, r :: rs)

end Sys2Proof.Machine
end

