-- ==== Sys2Proof/Safety.lean ====
section
/-! DEFINITION. The terms claims are stated in: which parts of the state two states share (frames), the invariants of
spec 10_state.md R37, the states a host can reach, when a run is safe, and what a program can tell apart (R65). -/

namespace Sys2Proof.Machine

/-- The parts of the state, for frames: every field of State is in one of them. -/
inductive Part where
  | memory | regs | index | pc | stackEntries | stackDepth | delay | sound | keypad | display | redraw | beep
  | config | random | diagnostics
deriving DecidableEq, Repr

/-- Two states agree on a part. Memory agrees when every address reads the same. -/
def Part.same (s t : State) : Part → Prop
  | .memory => ∀ a, t.byteAt a = s.byteAt a
  | .regs => ∀ r, t.reg r = s.reg r
  | .index => t.I = s.I
  | .pc => t.pc = s.pc
  | .stackEntries => t.stack = s.stack
  | .stackDepth => t.sp = s.sp
  | .delay => t.delay = s.delay
  | .sound => t.sound = s.sound
  | .keypad => t.keypad = s.keypad
  | .display => t.fb = s.fb
  | .redraw => t.redraw = s.redraw
  | .beep => t.beep = s.beep
  | .config => t.cfg = s.cfg
  | .random => t.random = s.random
  | .diagnostics => t.diagnostics = s.diagnostics

/-- `t` agrees with `s` on every part but the listed ones. -/
def SameExcept (changed : List Part) (s t : State) : Prop := ∀ p : Part, p ∉ changed → p.same s t

/-- `t`'s program counter is `s`'s plus `n`, modulo 65536 (R25; that it wraps there is the spec's own D6, log 9). -/
def PcPlus (n : Nat) (s t : State) : Prop := t.pc.toNat = (s.pc.toNat + n) % 65536

/-- The invariants that are not already in the types of State's fields (R37(a), (d) are): the reserved region holds what
construction put there (R37(c)), the framebuffer has its size (R33), the parameters are legal (R6; the font's first byte
is the spec's D13, log 1), and memory is in canonical form (the model's own form, log 22). -/
structure State.Inv (s : State) : Prop where
  memory : s.memWf = true
  reserved : ∀ a, a < 0x200 → s.byteAt a = Memory.initial s.cfg.font a
  display : s.fb.wf s.cfg.width s.cfg.height = true
  config : s.cfg.wf = true

/-- The states a host can bring a core to: construction with legal parameters, then any operations in
any order (R5, R60(c), R150, R160). -/
inductive Reachable : State → Prop where
  | new (c : Config) (injected : List Byte) (h : c.wf = true) : Reachable (State.new c injected)
  | call (op : HostOp) (s : State) (h : Reachable s) : Reachable (hostCall op s).1

/-- The next `n` steps all complete: no fault, no refusal. -/
def SafeFor : Nat → State → Prop
  | 0, _ => True
  | n + 1, s => ∃ t, step s = .next t ∧ SafeFor n t

/-- The low 12 bits of a word: all that reaches memory of it (R52, R65). -/
def low12 (w : Word) : Nat := w.toNat % 4096

/-- An event as a program's author sees it: the address by its low 12 bits. -/
def Diagnostic.low : Diagnostic → Diagnostic
  | .unknownOpcode pc op => .unknownOpcode (BitVec.ofNat 16 (low12 pc)) op
  | .reservedWrite pc a => .reservedWrite (BitVec.ofNat 16 (low12 pc)) a

/-- A fault with its address by its low 12 bits. -/
def Fault.low : Fault → Fault
  | .stackOverflow pc => .stackOverflow (BitVec.ofNat 16 (low12 pc))
  | .stackUnderflow pc => .stackUnderflow (BitVec.ofNat 16 (low12 pc))
  | .illegalOpcode pc op => .illegalOpcode (BitVec.ofNat 16 (low12 pc)) op

/-- Two states differ at most in bits 15:12 of `pc`, of `I` and of what of `pc` was saved (R65). -/
structure SameLow (s t : State) : Prop where
  mem : t.mem = s.mem
  V : t.V = s.V
  I : low12 t.I = low12 s.I
  pc : low12 t.pc = low12 s.pc
  stack : ∀ j : Fin 16, low12 t.stack[j] = low12 s.stack[j]
  sp : t.sp = s.sp
  delay : t.delay = s.delay
  sound : t.sound = s.sound
  keypad : t.keypad = s.keypad
  fb : t.fb = s.fb
  redraw : t.redraw = s.redraw
  beep : t.beep = s.beep
  cfg : t.cfg = s.cfg
  random : t.random = s.random
  diagnostics : t.diagnostics.map Diagnostic.low = s.diagnostics.map Diagnostic.low

/-- Two results that differ at most in those bits. -/
def SameLowResult : Result → Result → Prop
  | .next s, .next t => SameLow s t
  | .fault f, .fault g => g.low = f.low
  | .refused r, .refused q => q = r
  | _, _ => False

/-! Shapes of effects: what one instruction does when it completes, said through reads and numbers. -/

/-- `i` completes: `V[x]` is `v`, `pc` is two further on, nothing else changes. -/
def WritesOneReg (i : Instr) (s : State) (x : Reg) (v : Nat) : Prop :=
  ∃ t, exec i s = .next t ∧ (t.reg x).toNat = v ∧ (∀ r, r ≠ x → t.reg r = s.reg r) ∧ PcPlus 2 s t ∧
    SameExcept [.pc, .regs] s t

/-- `i` completes: `V[x]` is `v`; where `x` is not `VF`, `VF` is `flag`; `pc` is two further on, nothing else changes. -/
def WritesFlagThenReg (i : Instr) (s : State) (x : Reg) (flag v : Nat) : Prop :=
  ∃ t, exec i s = .next t ∧ (t.reg x).toNat = v ∧ (x ≠ VF → (t.reg VF).toNat = flag) ∧
    (∀ r, r ≠ x → r ≠ VF → t.reg r = s.reg r) ∧ PcPlus 2 s t ∧ SameExcept [.pc, .regs] s t

/-- `i` completes: `I` is `v`, `pc` is two further on, nothing else changes. -/
def WritesIndex (i : Instr) (s : State) (v : Nat) : Prop :=
  ∃ t, exec i s = .next t ∧ t.I.toNat = v ∧ PcPlus 2 s t ∧ SameExcept [.pc, .index] s t

/-- `i` completes: `pc` is `target`, nothing else changes. -/
def OnlyMovesPc (i : Instr) (s : State) (target : Nat) : Prop :=
  ∃ t, exec i s = .next t ∧ t.pc.toNat = target ∧ SameExcept [.pc] s t

/-- `i` completes and skips: `pc` moves by 4 if the condition holds, else by 2; nothing else changes. -/
def SkipsWhen (i : Instr) (s : State) (c : Prop) : Prop :=
  (c → OnlyMovesPc i s ((s.pc.toNat + 4) % 65536)) ∧ (¬c → OnlyMovesPc i s ((s.pc.toNat + 2) % 65536))

/-- From `s` to `t` the bytes were stored at `I`, `I + 1`, ... modulo 4096, those aimed below 0x200 were suppressed and
reported in order, and every other address reads as before (R54, R125). -/
def StoredAtIndex (bytes : List Byte) (s t : State) : Prop :=
  (∀ k, (h : k < bytes.length) → 0x200 ≤ (s.I.toNat + k) % 4096 →
    t.byteAt ((s.I.toNat + k) % 4096) = bytes[k]) ∧
  (∀ a, (∀ k, k < bytes.length → a = (s.I.toNat + k) % 4096 → a < 0x200) → t.byteAt a = s.byteAt a) ∧
  t.diagnostics = s.diagnostics ++
    (((List.range bytes.length).map fun k => (s.I.toNat + k) % 4096).filter (· < 0x200)).map
      fun a => .reservedWrite s.pc (BitVec.ofNat 12 a)

/-- Sprite bit `(row, col)` of `DXYN` is set and falls on pixel `(px, py)` of the torus (R135, R137). -/
def State.spriteHits (s : State) (x y : Reg) (px py row col : Nat) : Bool :=
  (s.byteAt ((s.I.toNat + row) % 4096)).getLsbD (7 - col) &&
    ((s.reg x).toNat + col) % s.cfg.width == px && ((s.reg y).toNat + row) % s.cfg.height == py

/-- How many set sprite bits fall on a pixel: at most one on a screen at least 8 wide and 15 high. -/
def State.spriteHitCount (s : State) (x y : Reg) (n : Nibble) (px py : Nat) : Nat :=
  ((List.range n.toNat).map fun row => (List.range 8).countP (s.spriteHits x y px py row)).sum

/-- The registers an instruction names as destinations, with `VF` for the flag writers (R22). -/
def Instr.mayWrite (i : Instr) (r : Reg) : Bool :=
  match i with
  | .op6XNN x _ | .op7XNN x _ | .op8XY0 x _ | .op8XY1 x _ | .op8XY2 x _ | .op8XY3 x _ | .opCXNN x _
  | .opFX07 x | .opFX0A x => r == x
  | .op8XY4 x _ | .op8XY5 x _ | .op8XY6 x _ | .op8XY7 x _ => r == x || r == VF
  | .op8XYE x y => r == x || r == y || r == VF
  | .opDXYN _ _ _ => r == VF
  | .opFX65 x => r ≤ x
  | .op00E0 | .op00EE | .op1NNN _ | .op2NNN _ | .op3XNN _ _ | .op4XNN _ _ | .op5XY0 _ _ | .op9XY0 _ _
  | .opANNN _ | .opBNNN _ | .opEX9E _ | .opEXA1 _ | .opFX15 _ | .opFX18 _ | .opFX1E _ | .opFX29 _
  | .opFX33 _ | .opFX55 _ => false

/-- The instructions whose next `pc` is not always two further on (R25). -/
def Instr.movesPc (i : Instr) : Bool :=
  match i with
  | .op00EE | .op1NNN _ | .op2NNN _ | .op3XNN _ _ | .op4XNN _ _ | .op5XY0 _ _ | .op9XY0 _ _ | .opBNNN _
  | .opEX9E _ | .opEXA1 _ | .opFX0A _ => true
  | .op00E0 | .op6XNN _ _ | .op7XNN _ _ | .op8XY0 _ _ | .op8XY1 _ _ | .op8XY2 _ _ | .op8XY3 _ _ | .op8XY4 _ _
  | .op8XY5 _ _ | .op8XY6 _ _ | .op8XY7 _ _ | .op8XYE _ _ | .opANNN _ | .opCXNN _ _ | .opDXYN _ _ _ | .opFX07 _
  | .opFX15 _ | .opFX18 _ | .opFX1E _ | .opFX29 _ | .opFX33 _ | .opFX55 _ | .opFX65 _ => false

/-- Calls to each of the addresses, one after another, stopping at the first fault. -/
def callAll : List Addr → State → Result
  | [], s => .next s
  | a :: rest, s =>
    match exec (.op2NNN a) s with
    | .next t => callAll rest t
    | .fault f => .fault f
    | .refused r => .refused r

/-- The next step fetches a word that decodes to `i`. -/
def Fetches (s : State) (i : Instr) : Prop := decodeWord s.fetchWord = .instr i

end Sys2Proof.Machine
end

