-- ==== Sys2Proof/Certificates/Slice0/Obligations.lean ====
section
/-! DEFINITION. The statements for the provers, in the order of spec/: encoding, step, control transfer, registers,
index and memory, display, keypad and timers, host operations, faults, whole-machine rules. A docstring names the rule
a statement formalises, and the log entry where a clause rests on a choice (the spec's own decision `D<n>` or the
model's). In every statement, that an addition to `pc` wraps at 65536 is the spec's D6, log 9. -/

open Sys2Proof Sys2Proof.Machine

/-! ## Encoding (30_encoding.md) -/

/-- Decoding the word of any instruction, with any operands, gives the instruction back, and so does decoding its two
bytes, high byte first, whatever follows them (R70, R71, R74). -/
def Obligations.DecodeOfEncodeIsTheInstruction : Prop :=
  ∀ i : Instr, decodeWord (encode i) = .instr i ∧
    (highByte (encode i)).toNat * 256 + (lowByte (encode i)).toNat = (encode i).toNat ∧
    ∀ rest : List Byte, decodeBytes (encodeBytes i ++ rest) = .ok (i, rest)

/-- A word that decodes to an instruction is that instruction's word, and one that does not is reported as itself: each
of the 65536 words has one meaning (R74). Exact match is the spec's D22, log 15. -/
def Obligations.EncodeOfDecodeIsTheWord : Prop :=
  ∀ op : Word, (∀ i, decodeWord op = .instr i → encode i = op) ∧ (∀ w, decodeWord op = .unknown w → w = op)

/-- "A word `op` is the instruction of a row exactly when `op & mask = match`" (R72): the decoder of R74 and the table
of R72 agree on every word and row. Exact match is the spec's D22, log 15. -/
def Obligations.DecoderAgreesWithOpcodeTable : Prop :=
  ∀ op : Word, ∀ r ∈ opcodeTable,
    r.covers op = true ↔ ∃ i, decodeWord op = .instr i ∧ i.pattern = r.pattern

/-- The unknown words, family by family, by their digits (R80). Exact match is the spec's D22, log 15. -/
def Obligations.UnknownWordsAreTheseByFamily : Prop :=
  ∀ op : Word, decodeWord op = .unknown op ↔
    (op.toNat / 4096 = 0x0 ∧ op.toNat % 4096 ≠ 0x0E0 ∧ op.toNat % 4096 ≠ 0x0EE) ∨
    (op.toNat / 4096 = 0x5 ∧ op.toNat % 16 ≠ 0) ∨
    (op.toNat / 4096 = 0x8 ∧ op.toNat % 16 ∈ [0x8, 0x9, 0xA, 0xB, 0xC, 0xD, 0xF]) ∨
    (op.toNat / 4096 = 0x9 ∧ op.toNat % 16 ≠ 0) ∨
    (op.toNat / 4096 = 0xE ∧ op.toNat % 256 ∉ [0x9E, 0xA1]) ∨
    (op.toNat / 4096 = 0xF ∧ op.toNat % 256 ∉ [0x07, 0x0A, 0x15, 0x18, 0x1E, 0x29, 0x33, 0x55, 0x65])

/-- Words written out digit by digit from R72 decode to what they stand for; words of the unknown space do not. Exact match
is the spec's D22, log 15. -/
def Obligations.WrittenOutWordsDecode : Prop :=
  decodeWord 0x00E0#16 = .instr .op00E0 ∧ decodeWord 0x2ABC#16 = .instr (.op2NNN 0xABC#12) ∧
  decodeWord 0x3A42#16 = .instr (.op3XNN 10 0x42#8) ∧ decodeWord 0x812E#16 = .instr (.op8XYE 1 2) ∧
  decodeWord 0xD015#16 = .instr (.opDXYN 0 1 5#4) ∧ decodeWord 0xE19E#16 = .instr (.opEX9E 1) ∧
  decodeWord 0xFF65#16 = .instr (.opFX65 15) ∧ decodeWord 0x5121#16 = .unknown 0x5121#16

/-! ## The step (40_step_cycle.md, 20_memory.md) -/

/-- Fetch takes the bytes at `pc` and `pc + 1`, each address modulo 4096, the first as the high byte (R53, R91). The
reduction is the spec's D4, log 8. -/
def Obligations.FetchIsBigEndianAndWraps : Prop :=
  ∀ s : State, s.fetchWord.toNat =
    (s.byteAt (s.pc.toNat % 4096)).toNat * 256 + (s.byteAt ((s.pc.toNat + 1) % 4096)).toNat

/-- When the bytes at the program counter decode to an instruction, a step runs that instruction's execute phase with the
last step's events forgotten (R90 to R93). If it completes, the timer phase follows (R94): a timer that is not 0 falls
by one, the beep flag is set exactly when it was set or `sound` goes from 1 to 0, nothing else changes. If it faults, so
does the step (R96). That the events are forgotten is the spec's D15, log 6; that every completed step ticks is its D2,
log 13; that an untaken beep stays set is its D25, log 14. -/
def Obligations.StepRunsTheDecodedInstruction : Prop :=
  ∀ (s : State) (i : Instr) (rest : List Byte),
    decodeBytes [s.memRead s.pc.toNat, s.memRead (s.pc.toNat + 1)] = .ok (i, rest) →
    (∀ u, exec i { s with diagnostics := [] } = .next u → ∃ t, step s = .next t ∧
      t.delay.toNat = u.delay.toNat - 1 ∧ t.sound.toNat = u.sound.toNat - 1 ∧
      (t.beep = true ↔ u.beep = true ∨ u.sound.toNat = 1) ∧ SameExcept [.delay, .sound, .beep] u t) ∧
    (∀ f, exec i { s with diagnostics := [] } = .fault f → step s = .fault f)

/-- An unknown opcode (R95): in permissive mode the step completes with one event, `pc` two further on and the timers
ticked, all else unchanged but for the beep flag, which `TimersFallOncePerCompletedStep` gives; in strict mode it raises
`IllegalOpcode` with the address and the word. The mode is OPEN (D3): it is a field of the configuration, log 3. The
tick in such a step, the event's contents and what the fault carries are the spec's D2, D15 and D14, logs 13, 6 and
20. -/
def Obligations.UnknownOpcodeIsNoOpOrFault : Prop :=
  ∀ s : State, decodeWord s.fetchWord = .unknown s.fetchWord →
    (s.cfg.illegalMode = .permissive → ∃ t, step s = .next t ∧ PcPlus 2 s t ∧
      t.diagnostics = [.unknownOpcode s.pc s.fetchWord] ∧ t.delay.toNat = s.delay.toNat - 1 ∧
      t.sound.toNat = s.sound.toNat - 1 ∧ SameExcept [.pc, .delay, .sound, .beep, .diagnostics] s t) ∧
    (s.cfg.illegalMode = .strict → step s = .fault (.illegalOpcode s.pc s.fetchWord))

/-! ## Control transfer (41_flow.md) -/

/-- `00EE` (R101): "PC = pop(stack) + 2", and `StackUnderflow` with an empty stack. The count form of the depth and that
a popped entry keeps its value are the spec's D16, log 16; the address the fault carries is its D14, log 20. -/
def Obligations.ReturnPopsAndAddsTwo : Prop :=
  ∀ s : State,
    (s.sp.val = 0 → exec .op00EE s = .fault (.stackUnderflow s.pc)) ∧
    (∀ n, (h : n < 16) → s.sp.val = n + 1 → ∃ t, exec .op00EE s = .next t ∧ t.sp.val = n ∧
      t.pc.toNat = (s.stack[n].toNat + 2) % 65536 ∧ SameExcept [.pc, .stackDepth] s t)

/-- `1NNN` (R102): "PC = NNN (no advance)", whatever the target; that an odd one is legal is the spec's D6, log 9. -/
def Obligations.JumpSetsPc : Prop :=
  ∀ (nnn : Addr) (s : State), OnlyMovesPc (.op1NNN nnn) s nnn.toNat

/-- `2NNN` (R103): push the address of this instruction, then `PC = NNN`; `StackOverflow` with 16 entries in use. The
count form of the depth is the spec's D16, log 16; the address the fault carries is its D14, log 20. -/
def Obligations.CallPushesItsOwnAddress : Prop :=
  ∀ (nnn : Addr) (s : State),
    (s.sp.val = 16 → exec (.op2NNN nnn) s = .fault (.stackOverflow s.pc)) ∧
    (∀ h : s.sp.val < 16, ∃ t, exec (.op2NNN nnn) s = .next t ∧ t.sp.val = s.sp.val + 1 ∧
      t.stack[s.sp.val] = s.pc ∧ (∀ j, (hj : j < 16) → j ≠ s.sp.val → t.stack[j] = s.stack[j]) ∧
      t.pc.toNat = nnn.toNat ∧ SameExcept [.pc, .stackEntries, .stackDepth] s t)

/-- The four register skips (R104 to R107): `pc` moves by 4 if the condition holds, else by 2. For `4XNN` the two distances
are the spec's own inference (R105); that `pc` wraps at 65536 is its D6, log 9. -/
def Obligations.SkipsFollowTheirConditions : Prop :=
  ∀ (x y : Reg) (nn : Byte) (s : State),
    SkipsWhen (.op3XNN x nn) s (s.reg x = nn) ∧ SkipsWhen (.op4XNN x nn) s (s.reg x ≠ nn) ∧
    SkipsWhen (.op5XY0 x y) s (s.reg x = s.reg y) ∧ SkipsWhen (.op9XY0 x y) s (s.reg x ≠ s.reg y)

/-- `BNNN` (R108): "PC = NNN + V0", not reduced to 12 bits, which is the spec's D6, log 9. -/
def Obligations.OffsetJumpAddsV0 : Prop :=
  ∀ (nnn : Addr) (s : State), OnlyMovesPc (.opBNNN nnn) s (nnn.toNat + (s.reg 0).toNat)

/-- "`2NNN` followed immediately by `00EE` leaves `PC` equal to (address of the CALL) + 2, and the stack depth
unchanged" (R103, 95_test_vectors.md S5); the entries in use before the call are kept. The count form of the depth is
the spec's D16, log 16. -/
def Obligations.CallThenReturnComesBack : Prop :=
  ∀ (nnn : Addr) (s : State), s.sp.val < 16 → ∃ t u, exec (.op2NNN nnn) s = .next t ∧ exec .op00EE t = .next u ∧
    PcPlus 2 s u ∧ (∀ j, (h : j < 16) → j < s.sp.val → u.stack[j] = s.stack[j]) ∧
    SameExcept [.pc, .stackEntries] s u

/-- Calls fill the stack to 16 entries and the next one overflows, leaving the entries as they were (R27, R103, S9). The
count form of the depth is the spec's D16, log 16; the address the fault carries is its D14, log 20. -/
def Obligations.SeventeenthNestedCallOverflows : Prop :=
  ∀ (targets : List Addr) (s : State), s.sp.val + targets.length = 16 → ∃ t, callAll targets s = .next t ∧
    t.sp.val = 16 ∧ (∀ j, (h : j < 16) → j < s.sp.val → t.stack[j] = s.stack[j]) ∧
    ∀ nnn, exec (.op2NNN nnn) t = .fault (.stackOverflow t.pc)

/-- A `1NNN` that targets itself is an endless loop (R102, R98): any number of steps complete. -/
def Obligations.JumpToItselfRunsForEver : Prop :=
  ∀ (n : Nat) (nnn : Addr) (s : State), s.pc.toNat = nnn.toNat → Fetches s (.op1NNN nnn) → SafeFor n s

/-! ## Registers (42_alu.md) -/

/-- `6XNN`, `7XNN`, `8XY0` (R111, R112, R113): immediate, immediate sum modulo 256 with no flag, move. -/
def Obligations.LoadsAndImmediateAdd : Prop :=
  ∀ (x y : Reg) (nn : Byte) (s : State),
    WritesOneReg (.op6XNN x nn) s x nn.toNat ∧
    WritesOneReg (.op7XNN x nn) s x (((s.reg x).toNat + nn.toNat) % 256) ∧
    WritesOneReg (.op8XY0 x y) s x (s.reg y).toNat

/-- `8XY1`, `8XY2`, `8XY3` (R114, R115, R116): bitwise OR, AND, exclusive OR; `VF` is not written as a flag. -/
def Obligations.LogicLeavesFlagAlone : Prop :=
  ∀ (x y : Reg) (s : State),
    WritesOneReg (.op8XY1 x y) s x ((s.reg x).toNat ||| (s.reg y).toNat) ∧
    WritesOneReg (.op8XY2 x y) s x ((s.reg x).toNat &&& (s.reg y).toNat) ∧
    WritesOneReg (.op8XY3 x y) s x ((s.reg x).toNat ^^^ (s.reg y).toNat)

/-- `8XY4` (R117): `VF` = 1 if the sum exceeds 255, else 0; `V[X]` = sum modulo 256. With `X = F` the sum survives, by the
order of R110 (the spec's D8, log 11). -/
def Obligations.AddSetsCarryThenSum : Prop :=
  ∀ (x y : Reg) (s : State), WritesFlagThenReg (.op8XY4 x y) s x
    (if (s.reg x).toNat + (s.reg y).toNat > 255 then 1 else 0) (((s.reg x).toNat + (s.reg y).toNat) % 256)

/-- `8XY5` and `8XY7` (R118, R120): `VF` = 0 on a borrow, else 1; the difference is `a - b` or `a - b + 256`. With `X = F`
the difference survives, by the order of R110 (the spec's D8, log 11). -/
def Obligations.SubtractionsSetNotBorrow : Prop :=
  ∀ (x y : Reg) (s : State),
    WritesFlagThenReg (.op8XY5 x y) s x (if (s.reg x).toNat < (s.reg y).toNat then 0 else 1)
      (((s.reg x).toNat + 256 - (s.reg y).toNat) % 256) ∧
    WritesFlagThenReg (.op8XY7 x y) s x (if (s.reg y).toNat < (s.reg x).toNat then 0 else 1)
      (((s.reg y).toNat + 256 - (s.reg x).toNat) % 256)

/-- `8XY6` (R119): `VF` = bit 0 of `V[Y]`, `V[X]` = `V[Y]` halved; `V[Y]` itself is not written unless it is `V[X]` or `VF`. With
`X = F` the shifted value survives, by the order of R110 (the spec's D8, log 11). -/
def Obligations.ShiftRightReadsVy : Prop :=
  ∀ (x y : Reg) (s : State),
    WritesFlagThenReg (.op8XY6 x y) s x ((s.reg y).toNat % 2) ((s.reg y).toNat / 2)

/-- `8XYE` (R121): both `V[X]` and `V[Y]` receive `V[Y]` doubled modulo 256; `VF` = bit 7 of `V[Y]` unless `VF` is one of
them (the order of R110, the spec's D8, log 11). -/
def Obligations.ShiftLeftWritesBoth : Prop :=
  ∀ (x y : Reg) (s : State), ∃ t, exec (.op8XYE x y) s = .next t ∧
    (t.reg x).toNat = (s.reg y).toNat * 2 % 256 ∧ (t.reg y).toNat = (s.reg y).toNat * 2 % 256 ∧
    (x ≠ VF → y ≠ VF → (t.reg VF).toNat = (s.reg y).toNat / 128) ∧
    (∀ r, r ≠ x → r ≠ y → r ≠ VF → t.reg r = s.reg r) ∧ PcPlus 2 s t ∧ SameExcept [.pc, .regs] s t

/-- `CXNN` (R122): `V[X]` is some byte of the source masked by `NN`, exactly one byte is drawn, and where bytes were
injected it is the next of them. The injected queue and the free bytes after it are the model's form of the source
(D20, log 5); nothing here rests on the value of a free byte. -/
def Obligations.RandomMasksOneDrawnByte : Prop :=
  ∀ (x : Reg) (nn : Byte) (s : State), ∃ (b : Byte) (t : State), exec (.opCXNN x nn) s = .next t ∧
    (t.reg x).toNat = b.toNat &&& nn.toNat ∧ (∀ c rest, s.random.injected = c :: rest → b = c) ∧
    t.random.injected = s.random.injected.tail ∧ t.random.drawn = s.random.drawn + 1 ∧
    (∀ r, r ≠ x → t.reg r = s.reg r) ∧ PcPlus 2 s t ∧ SameExcept [.pc, .regs, .random] s t

/-- An instruction writes no register but its named destinations and, for the flag writers, `VF` (R22). -/
def Obligations.OnlyNamedRegistersAreWritten : Prop :=
  ∀ (i : Instr) (s t : State), exec i s = .next t → ∀ r, Instr.mayWrite i r = false → t.reg r = s.reg r

/-! ## Index register and memory (43_index_memory.md) -/

/-- `ANNN` and `FX29` (R126, R128): `I` = `NNN`; `I` = `V[X]` times 5, the whole byte, with no flag. -/
def Obligations.IndexLoadsAddressOrGlyph : Prop :=
  ∀ (nnn : Addr) (x : Reg) (s : State),
    WritesIndex (.opANNN nnn) s nnn.toNat ∧ WritesIndex (.opFX29 x) s ((s.reg x).toNat * 5)

/-- `FX1E` (R127): `I` grows by `V[X]`, `VF` is not written. That it wraps at 65536 is the spec's D5, log 9. -/
def Obligations.IndexAddWrapsWithoutFlag : Prop :=
  ∀ (x : Reg) (s : State), WritesIndex (.opFX1E x) s ((s.I.toNat + (s.reg x).toNat) % 65536)

/-- `FX33` (R129): hundreds, tens and ones of `V[X]` at `I`, `I + 1`, `I + 2`; `I` and the registers are unchanged. Address
wrap and the suppression below 0x200 are the spec's D4 and D7, logs 8 and 10. -/
def Obligations.DecimalDigitsAreStored : Prop :=
  ∀ (x : Reg) (s : State), s.memWf = true → ∃ t, exec (.opFX33 x) s = .next t ∧
    StoredAtIndex [BitVec.ofNat 8 ((s.reg x).toNat / 100), BitVec.ofNat 8 ((s.reg x).toNat / 10 % 10),
      BitVec.ofNat 8 ((s.reg x).toNat % 10)] s t ∧
    PcPlus 2 s t ∧ SameExcept [.pc, .memory, .diagnostics] s t

/-- `FX55` (R130): `V[0]..V[X]` at `I..I+X`, then `I` grows by `X + 1`, whether or not a store was suppressed. Address
wrap, suppression and the wrap of `I` are the spec's D4, D7 and D5, logs 8, 10 and 9. -/
def Obligations.RegisterBlockIsStored : Prop :=
  ∀ (x : Reg) (s : State), s.memWf = true → ∃ t, exec (.opFX55 x) s = .next t ∧
    StoredAtIndex (s.V.toList.take (x.val + 1)) s t ∧ t.I.toNat = (s.I.toNat + x.val + 1) % 65536 ∧
    PcPlus 2 s t ∧ SameExcept [.pc, .index, .memory, .diagnostics] s t

/-- `FX65` (R131): `V[0]..V[X]` from `I..I+X`, registers above `X` unchanged, then `I` grows by `X + 1`; memory is
unchanged. Address wrap and the wrap of `I` are the spec's D4 and D5, logs 8 and 9. -/
def Obligations.RegisterBlockIsLoaded : Prop :=
  ∀ (x : Reg) (s : State), ∃ t, exec (.opFX65 x) s = .next t ∧
    (∀ r, r ≤ x → t.reg r = s.byteAt ((s.I.toNat + r.val) % 4096)) ∧ (∀ r, x < r → t.reg r = s.reg r) ∧
    t.I.toNat = (s.I.toNat + x.val + 1) % 65536 ∧ PcPlus 2 s t ∧ SameExcept [.pc, .regs, .index] s t

/-- The round trip of R132: after an `FX55` of a block inside the program region, an `FX65` with the same `I` and `X`, in
any state that still holds the block, restores `V[0]..V[X]`, and `I` grows by `X + 1` both times. Address wrap and the
wrap of `I` are the spec's D4 and D5, logs 8 and 9. -/
def Obligations.StoreThenLoadRestoresRegisters : Prop :=
  ∀ (x : Reg) (s : State), s.memWf = true → 0x200 ≤ s.I.toNat % 4096 → s.I.toNat % 4096 + x.val ≤ 0xFFF →
    ∃ t, exec (.opFX55 x) s = .next t ∧ t.I.toNat = (s.I.toNat + x.val + 1) % 65536 ∧
      ∀ u : State, u.I = s.I →
        (∀ k, k ≤ x.val → u.byteAt ((s.I.toNat + k) % 4096) = t.byteAt ((s.I.toNat + k) % 4096)) →
        ∃ w, exec (.opFX65 x) u = .next w ∧ (∀ r, r ≤ x → w.reg r = s.reg r) ∧ w.I = t.I

/-! ## Display (44_display.md) -/

/-- `00E0` (R136): every pixel 0, `redraw` true, `pc` two further on; `VF` and all else unchanged. -/
def Obligations.ClearScreenZeroesEveryPixel : Prop :=
  ∀ s : State, ∃ t, exec .op00E0 s = .next t ∧ (∀ x y, t.fb.get x y = false) ∧
    t.fb.wf s.cfg.width s.cfg.height = true ∧ t.redraw = true ∧ PcPlus 2 s t ∧
    SameExcept [.pc, .display, .redraw] s t

/-- `DXYN` (R137): every pixel is inverted once for each set sprite bit that falls on it on the torus; `VF` is 0 or 1;
`redraw` is set; `I`, memory and every other register are unchanged. That sprite addresses wrap is the spec's D4,
log 8; that a coordinate in `VF` is read before `VF` is written is its D8, log 11. -/
def Obligations.DrawInvertsHitPixels : Prop :=
  ∀ (x y : Reg) (n : Nibble) (s : State), s.fb.wf s.cfg.width s.cfg.height = true → s.cfg.wf = true →
    ∃ t, exec (.opDXYN x y n) s = .next t ∧
      (∀ px py, px < s.cfg.width → py < s.cfg.height →
        t.fb.get px py = (s.fb.get px py ^^ (s.spriteHitCount x y n px py % 2 == 1))) ∧
      (t.reg VF = 0#8 ∨ t.reg VF = 1#8) ∧ t.redraw = true ∧ (∀ r, r ≠ VF → t.reg r = s.reg r) ∧ PcPlus 2 s t ∧
      t.fb.wf s.cfg.width s.cfg.height = true ∧ SameExcept [.pc, .regs, .display, .redraw] s t

/-- `VF` after `DXYN` (R137): on every screen it is 1 exactly when a sprite bit fell on a pixel that was 1, or two fell on
one pixel, else 0; where no pixel is visited twice, that is when some pixel that was 1 before is 0 after (R138(c)). On
smaller screens the sequential order is the spec's D18, log 17. That sprite addresses wrap is its D4, log 8; that a
coordinate in `VF` is read before `VF` is written is its D8, log 11. -/
def Obligations.DrawReportsCollision : Prop :=
  ∀ (x y : Reg) (n : Nibble) (s : State), s.fb.wf s.cfg.width s.cfg.height = true → s.cfg.wf = true →
    ∃ t, exec (.opDXYN x y n) s = .next t ∧
      (t.reg VF = 0#8 ∨ t.reg VF = 1#8) ∧
      (t.reg VF = 1#8 ↔ ∃ px py, px < s.cfg.width ∧ py < s.cfg.height ∧
        ((s.fb.get px py = true ∧ 1 ≤ s.spriteHitCount x y n px py) ∨ 2 ≤ s.spriteHitCount x y n px py)) ∧
      (8 ≤ s.cfg.width → 15 ≤ s.cfg.height →
        (t.reg VF = 1#8 ↔ ∃ px py, px < s.cfg.width ∧ py < s.cfg.height ∧
          s.fb.get px py = true ∧ t.fb.get px py = false))

/-- Drawing the same sprite twice at the same place restores the framebuffer, and the second draw reports a collision if
the first turned a pixel on (R138(a)); the second draw may name other registers, as long as they hold the coordinates.
That sprite addresses wrap is the spec's D4, log 8; that a coordinate in `VF` is read before `VF` is written is its D8,
log 11. -/
def Obligations.DrawingTwiceRestoresTheScreen : Prop :=
  ∀ (x y : Reg) (n : Nibble) (s : State), s.fb.wf s.cfg.width s.cfg.height = true → s.cfg.wf = true →
    ∃ t, exec (.opDXYN x y n) s = .next t ∧ ∀ x' y' : Reg, t.reg x' = s.reg x → t.reg y' = s.reg y →
      ∃ u, exec (.opDXYN x' y' n) t = .next u ∧ u.fb = s.fb ∧
        ((∃ px py, px < s.cfg.width ∧ py < s.cfg.height ∧ s.fb.get px py = false ∧ t.fb.get px py = true) →
          u.reg VF = 1#8)

/-- `redraw` after a completed step is set exactly when it was set or the step ran `00E0` or `DXYN` (R32, R139). -/
def Obligations.OnlyDrawingSetsRedraw : Prop :=
  ∀ s t : State, step s = .next t → (t.redraw = true ↔
    s.redraw = true ∨ Fetches s .op00E0 ∨ ∃ x y n, Fetches s (.opDXYN x y n))

/-! ## Keypad and timers (45_keypad_timers.md) -/

/-- `EX9E` and `EXA1` (R141, R142): skip if the key is pressed, if it is not. That a register above 15 selects the key of
its low 4 bits is the spec's D9, log 12. -/
def Obligations.KeySkipsFollowTheKey : Prop :=
  ∀ (x k : Reg) (s : State), (s.reg x).toNat % 16 = k.val →
    SkipsWhen (.opEX9E x) s (s.keypad[k] = true) ∧ SkipsWhen (.opEXA1 x) s (s.keypad[k] = false)

/-- `FX0A` (R144, R147): with no key pressed the execute phase changes nothing, `pc` included, and the step still completes
with the timers ticked and the last step's events forgotten, all else unchanged but for the beep flag, which
`TimersFallOncePerCompletedStep` gives; otherwise `V[X]` is the number of a pressed key, the lowest under the default
policy. That a waiting step ticks is the spec's D2, log 13; the forgetting is its D15, log 6; level and tie-break are
its D10, logs 27 and 4. -/
def Obligations.KeyWaitTakesAPressedKey : Prop :=
  ∀ (x : Reg) (s : State),
    ((∀ k : Reg, s.keypad[k] = false) → exec (.opFX0A x) s = .next s ∧
      (Fetches s (.opFX0A x) → ∃ t, step s = .next t ∧ t.delay.toNat = s.delay.toNat - 1 ∧
        t.sound.toNat = s.sound.toNat - 1 ∧ t.diagnostics = [] ∧
        SameExcept [.delay, .sound, .beep, .diagnostics] s t)) ∧
    (∀ j : Reg, s.keypad[j] = true → ∃ k : Reg, s.keypad[k] = true ∧
      (s.cfg.keyPolicy = .lowest → ∀ l : Reg, l < k → s.keypad[l] = false) ∧
      WritesOneReg (.opFX0A x) s x k.val)

/-- `FX07` (R143) reads the delay timer as it is before this step's timer phase; `FX15` (R145) sets it to `V[X]`, and the
timer phase of the same step then decrements it. That every completed step ticks is the spec's D2, log 13. -/
def Obligations.DelayIsReadAndSetBeforeItTicks : Prop :=
  ∀ (x : Reg) (s : State),
    WritesOneReg (.opFX07 x) s x s.delay.toNat ∧
    (Fetches s (.opFX07 x) → ∃ t, step s = .next t ∧ t.reg x = s.delay ∧ t.delay.toNat = s.delay.toNat - 1) ∧
    (∃ t, exec (.opFX15 x) s = .next t ∧ t.delay = s.reg x ∧ PcPlus 2 s t ∧ SameExcept [.pc, .delay] s t) ∧
    (Fetches s (.opFX15 x) → ∃ t, step s = .next t ∧ t.delay.toNat = (s.reg x).toNat - 1)

/-- `FX18` (R146): `sound` is `V[X]`, and the timer phase of the same step then decrements it; the step sets the beep flag
exactly when `V[X] = 1`, whatever `sound` was. That every completed step ticks is the spec's D2, log 13; that an
untaken beep stays set is its D25, log 14. -/
def Obligations.SoundIsSetThenTicks : Prop :=
  ∀ (x : Reg) (s : State),
    (∃ t, exec (.opFX18 x) s = .next t ∧ t.sound = s.reg x ∧ PcPlus 2 s t ∧ SameExcept [.pc, .sound] s t) ∧
    (Fetches s (.opFX18 x) → ∃ t, step s = .next t ∧ t.sound.toNat = (s.reg x).toNat - 1 ∧
      (t.beep = true ↔ s.beep = true ∨ (s.reg x).toNat = 1))

/-- Over a completed step that does not set them, `delay` and `sound` fall by one and stop at 0, and the beep flag is set
exactly when `sound` went from 1 to 0 (R29, R30, R37(e)); every completed step counts (the spec's D2, log 13), and an
untaken beep stays set (D25, log 14). -/
def Obligations.TimersFallOncePerCompletedStep : Prop :=
  ∀ s t : State, step s = .next t →
    ((∀ x, ¬Fetches s (.opFX15 x)) → t.delay.toNat = s.delay.toNat - 1) ∧
    ((∀ x, ¬Fetches s (.opFX18 x)) → t.sound.toNat = s.sound.toNat - 1 ∧
      (t.beep = true ↔ s.beep = true ∨ s.sound.toNat = 1))

/-! ## Host operations (47_host_operations.md) -/

/-- What construction leaves as the spec gives it, whatever the parameters: the font from address 0, zeros from 80 up,
`pc` at 0x200, an empty stack (R23, R36, R150), and no event pending (log 6). Reset is a construction (R185, the
spec's D24), and the first byte of its font is 0xF0; the other font bytes are D13, log 1. -/
def Obligations.ResetLeavesTheGivenValues : Prop :=
  (∀ (c : Config) (injected : List Byte),
    (∀ a, (h : a < 80) → (State.new c injected).byteAt a = c.font[a]) ∧
    (∀ a, 80 ≤ a → (State.new c injected).byteAt a = 0#8) ∧ (State.new c injected).pc.toNat = 0x200 ∧
    (State.new c injected).sp.val = 0 ∧ (State.new c injected).diagnostics = []) ∧
  (∃ c injected, State.reset = State.new c injected ∧ c.wf = true) ∧ State.reset.byteAt 0 = 0xF0#8

/-- The zeros the model starts from where the source is silent: DESIGN CHOICE (the spec's D12), log 2; the screen size is
the spec's (R6), the modes are logs 3 and 4. -/
def Obligations.ResetChoosesZeros : Prop :=
  (∀ r, State.reset.reg r = 0#8) ∧ State.reset.I = 0#16 ∧ State.reset.delay = 0#8 ∧ State.reset.sound = 0#8 ∧
  (∀ k : Reg, State.reset.keypad[k] = false) ∧ (∀ j : Fin 16, State.reset.stack[j] = 0#16) ∧
  (∀ x y, State.reset.fb.get x y = false) ∧ State.reset.redraw = false ∧ State.reset.beep = false ∧
  State.reset.cfg.width = 64 ∧ State.reset.cfg.height = 32 ∧ State.reset.cfg.illegalMode = .permissive ∧
  State.reset.cfg.keyPolicy = .lowest

/-- `loadProgram` (R151, R55, R171), and the host's call of it: up to 3584 bytes go to 0x200 upward and nothing else
changes, and a core about to fetch at 0x200 then fetches the first two of them; more bytes are `ProgramTooLarge`, and
the core is as it was. That it may be called between any two steps is the spec's D23, log 18. -/
def Obligations.LoadWritesTheProgramRegion : Prop :=
  ∀ (bytes : List Byte) (s : State), s.memWf = true →
    (3584 < bytes.length → loadProgram bytes s = .error .programTooLarge ∧
      hostCall (.loadProgram bytes) s = (s, .loadFailed .programTooLarge)) ∧
    (bytes.length ≤ 3584 → ∃ t, loadProgram bytes s = .ok t ∧ hostCall (.loadProgram bytes) s = (t, .done) ∧
      (∀ i, (h : i < bytes.length) → t.byteAt (0x200 + i) = bytes[i]) ∧
      (∀ a, a < 0x200 ∨ 0x200 + bytes.length ≤ a → t.byteAt a = s.byteAt a) ∧
      (∀ hi lo rest, bytes = hi :: lo :: rest → s.pc = 0x200#16 →
        t.fetchWord.toNat = hi.toNat * 256 + lo.toNat) ∧
      SameExcept [.memory] s t)

/-- `setKeypad` (R153): all 16 states are replaced at once, element `k` is key `k`, and nothing else changes. -/
def Obligations.SetKeypadReplacesTheSnapshot : Prop :=
  ∀ (snapshot : Vector Bool 16) (s : State), ∃ t, hostCall (.setKeypad snapshot) s = (t, .done) ∧
    (∀ k : Reg, t.keypad[k] = snapshot[k]) ∧ SameExcept [.keypad] s t

/-- `framebuffer()` (R154, R33): `WIDTH · HEIGHT` cells, element `y · WIDTH + x` being `fb[x, y]`; one cell a pixel is the
spec's D21, log 17. -/
def Obligations.FramebufferIsRowMajor : Prop :=
  ∀ s : State, s.fb.wf s.cfg.width s.cfg.height = true → ∃ cells,
    hostCall .framebuffer s = (s, .pixels cells) ∧ cells.length = s.cfg.width * s.cfg.height ∧
    ∀ x y, x < s.cfg.width → y < s.cfg.height → cells[y * s.cfg.width + x]? = some (s.fb.get x y)

/-- The pixel query (R155): "for any naturals `x`, `y` it returns `fb[x mod WIDTH, y mod HEIGHT]`", element
`(y mod HEIGHT) · WIDTH + x mod WIDTH` of the framebuffer (R33, R154; one cell a pixel is the spec's D21, log 17); it
changes no state. -/
def Obligations.PixelQueryWraps : Prop :=
  ∀ (x y : Nat) (s : State), s.fb.wf s.cfg.width s.cfg.height = true → s.cfg.wf = true → ∃ b,
    hostCall (.pixelAt x y) s = (s, .bit b) ∧
    (framebuffer s)[(y % s.cfg.height) * s.cfg.width + x % s.cfg.width]? = some b

/-- `getRedraw`, `clearRedraw`, `takeRedrawFlag` (R156) and `pendingBeep` (R157): the reads return the flag, the takes
also clear it, and nothing else changes; a second take returns false. -/
def Obligations.FlagsAreReadAndCleared : Prop :=
  ∀ s : State, hostCall .getRedraw s = (s, .bit s.redraw) ∧
    (∃ t, hostCall .clearRedraw s = (t, .done) ∧ t.redraw = false ∧ SameExcept [.redraw] s t) ∧
    (∃ t, hostCall .takeRedrawFlag s = (t, .bit s.redraw) ∧ t.redraw = false ∧ SameExcept [.redraw] s t ∧
      hostCall .takeRedrawFlag t = (t, .bit false)) ∧
    (∃ t, hostCall .pendingBeep s = (t, .bit s.beep) ∧ t.beep = false ∧ SameExcept [.beep] s t ∧
      hostCall .pendingBeep t = (t, .bit false))

/-- `redraw` and `beep` go from false to true only in a step and from true to false only in the host's own operation on
that flag (R37(f), R32, R34). That an untaken beep survives every step is the spec's D25, log 14. -/
def Obligations.FlagsRiseInStepsAndFallInHostCalls : Prop :=
  ∀ (op : HostOp) (s : State),
    (s.redraw = false → (hostCall op s).1.redraw = true → op = .step) ∧
    (s.beep = false → (hostCall op s).1.beep = true → op = .step) ∧
    (s.redraw = true → (hostCall op s).1.redraw = false → op = .clearRedraw ∨ op = .takeRedrawFlag) ∧
    (s.beep = true → (hostCall op s).1.beep = false → op = .pendingBeep)

/-- No host operation but the step moves `pc` or touches `V`, `I`, the stack, the timers, the framebuffer, the random
source, the configuration or the events; only the load changes memory, only `setKeypad` the keypad, and only its own
operations each flag (R160, R161, R172). That the random source and the events stand in State is the model's own form,
logs 5 and 6. -/
def Obligations.HostOperationsTouchOnlyTheirOwnParts : Prop :=
  ∀ (op : HostOp) (s : State), op ≠ .step →
    SameExcept [.memory, .keypad, .redraw, .beep] s (hostCall op s).1 ∧
    ((∀ bytes, op ≠ .loadProgram bytes) → Part.same s (hostCall op s).1 .memory) ∧
    ((∀ snapshot, op ≠ .setKeypad snapshot) → Part.same s (hostCall op s).1 .keypad) ∧
    (op ≠ .clearRedraw → op ≠ .takeRedrawFlag → Part.same s (hostCall op s).1 .redraw) ∧
    (op ≠ .pendingBeep → Part.same s (hostCall op s).1 .beep)

/-! ## Faults and diagnostics (60_exceptions.md) -/

/-- A step faults in exactly these cases, with exactly these values (R165, R167): a `2NNN` at `sp = 16`, a `00EE` at
`sp = 0`, an unknown word in strict mode. It never refuses: the step is defined in every state (R98). The values carried
beyond the name are the spec's D14, log 20; the count form of the depth is its D16, log 16; the mode is OPEN (D3), log 3;
which words are unknown is D22, log 15. -/
def Obligations.StepFaultsExactlyThen : Prop :=
  ∀ s : State, (∀ r, step s ≠ .refused r) ∧ ∀ f : Fault, step s = .fault f ↔
    (f = .stackOverflow s.pc ∧ s.sp.val = 16 ∧ ∃ nnn, Fetches s (.op2NNN nnn)) ∨
    (f = .stackUnderflow s.pc ∧ s.sp.val = 0 ∧ Fetches s .op00EE) ∨
    (f = .illegalOpcode s.pc s.fetchWord ∧ s.cfg.illegalMode = .strict ∧
      decodeWord s.fetchWord = .unknown s.fetchWord)

/-- A faulted step changes nothing, so the host's next call of `step` reports the same fault (R168, R169; the spec's D11,
log 7). -/
def Obligations.FaultChangesNothingAndRepeats : Prop :=
  ∀ (s : State) (f : Fault), step s = .fault f →
    hostCall .step s = (s, .faulted f) ∧
    ∀ n, runSession (List.replicate n .step) s = (s, List.replicate n (.faulted f))

/-- The events of a completed step (R170, R173): one `UnknownOpcode` with the address and the word of a permissive unknown
opcode, or up to 16 `ReservedWrite` below 0x200 by an `FX33` or `FX55`, or none. Contents and delivery are the spec's
D7 and D15, logs 10 and 6; the mode is OPEN (D3), log 3. -/
def Obligations.StepReportsOnlyTheseEvents : Prop :=
  ∀ s t : State, step s = .next t →
    t.diagnostics = [] ∨
    (t.diagnostics = [.unknownOpcode s.pc s.fetchWord] ∧ s.cfg.illegalMode = .permissive ∧
      decodeWord s.fetchWord = .unknown s.fetchWord) ∨
    (t.diagnostics.length ≤ 16 ∧ (∃ x, Fetches s (.opFX33 x) ∨ Fetches s (.opFX55 x)) ∧
      ∀ d ∈ t.diagnostics, ∃ a : Addr, a.toNat < 0x200 ∧ d = .reservedWrite s.pc a)

/-! ## Whole-machine rules -/

/-- Where `pc` can be after a completed step (R25, R109): two or four further on, at a jump's or call's `NNN`, at
`NNN + V0`, at the popped value plus 2, or, for an `FX0A` with no key, where it was. That `pc` wraps at 65536 and is
never reduced to 12 bits is the spec's D6, log 9; the level reading of the keys is its D10, log 27. -/
def Obligations.PcHasOnlyTheseSuccessors : Prop :=
  ∀ s t : State, step s = .next t →
    PcPlus 2 s t ∨ PcPlus 4 s t ∨
    (∃ nnn, (Fetches s (.op1NNN nnn) ∨ Fetches s (.op2NNN nnn)) ∧ t.pc.toNat = nnn.toNat) ∨
    (∃ nnn, Fetches s (.opBNNN nnn) ∧ t.pc.toNat = nnn.toNat + (s.reg 0).toNat) ∨
    (∃ n, ∃ h : n < 16, Fetches s .op00EE ∧ s.sp.val = n + 1 ∧ t.pc.toNat = (s.stack[n].toNat + 2) % 65536) ∨
    (∃ x, Fetches s (.opFX0A x) ∧ (∀ k : Reg, s.keypad[k] = false) ∧ t.pc = s.pc)

/-- What a completed step may change of each part of the state: never the keypad or the configuration; a register only
by an instruction that names it or writes the flag; memory only by `FX33`, `FX55`; `I` only by `ANNN`, `FX1E`, `FX29`,
`FX55`, `FX65`; `pc`, but for moving two on, only by the instructions R25 lists; the stack only by `2NNN`, `00EE`; the
framebuffer and `redraw` only by `00E0`, `DXYN`; the random source only by `CXNN`; the timers, but for the tick, only by
`FX15`, `FX18`; the beep flag only by the tick; events only by `FX33`, `FX55` or an unknown opcode (R22, R23, R25, R26,
R29 to R32, R34, R100, R122, R139, R150, R170). The wrap of `pc`, the tick in every completed step, the untaken beep
and the events' delivery are the spec's D6, D2, D25 and D15, logs 9, 13, 14 and 6. -/
def Obligations.StepsTouchEachPartByItsOwnInstructions : Prop :=
  ∀ s t : State, step s = .next t →
    t.keypad = s.keypad ∧ t.cfg = s.cfg ∧
    (∀ r, (∀ i, Fetches s i → Instr.mayWrite i r = false) → t.reg r = s.reg r) ∧
    ((∀ i, Fetches s i → Instr.movesPc i = false) → PcPlus 2 s t) ∧
    ((∀ nnn, ¬Fetches s (.op2NNN nnn)) → ¬Fetches s .op00EE → t.stack = s.stack ∧ t.sp = s.sp) ∧
    (¬Fetches s .op00E0 → (∀ x y n, ¬Fetches s (.opDXYN x y n)) → t.fb = s.fb ∧ t.redraw = s.redraw) ∧
    ((∀ x nn, ¬Fetches s (.opCXNN x nn)) → t.random = s.random) ∧
    ((∀ nnn, ¬Fetches s (.opANNN nnn)) →
      (∀ x, ¬(Fetches s (.opFX1E x) ∨ Fetches s (.opFX29 x) ∨ Fetches s (.opFX55 x) ∨ Fetches s (.opFX65 x))) →
      t.I = s.I) ∧
    ((∀ x, ¬Fetches s (.opFX33 x)) → (∀ x, ¬Fetches s (.opFX55 x)) →
      (∀ a, t.byteAt a = s.byteAt a) ∧ ((∃ i, Fetches s i) → t.diagnostics = [])) ∧
    ((∀ x, ¬Fetches s (.opFX15 x)) → t.delay.toNat = s.delay.toNat - 1) ∧
    ((∀ x, ¬Fetches s (.opFX18 x)) → t.sound.toNat = s.sound.toNat - 1 ∧
      (t.beep = true ↔ s.beep = true ∨ s.sound.toNat = 1)) ∧
    (∀ x, Fetches s (.opFX18 x) → (t.beep = true ↔ s.beep = true ∨ (s.reg x).toNat = 1))

/-- No step changes the reserved region, and only `FX33` and `FX55` change memory at all (R23, R51, R54, R193). The
suppression is the spec's D7, log 10. -/
def Obligations.StepsNeverWriteTheReservedRegion : Prop :=
  ∀ s t : State, step s = .next t →
    (∀ a, a < 0x200 → t.byteAt a = s.byteAt a) ∧
    ((∀ x, ¬Fetches s (.opFX33 x)) → (∀ x, ¬Fetches s (.opFX55 x)) → ∀ a, t.byteAt a = s.byteAt a)

/-- Construction meets the invariants: the reserved region as constructed, the framebuffer of its size (R37, R33), and
legal parameters (R6). Canonical memory is the model's own form, log 22; the font's first byte is the spec's D13,
log 1. -/
def Obligations.ConstructionMeetsTheInvariants : Prop :=
  State.reset.Inv ∧ ∀ (c : Config) (injected : List Byte), c.wf = true → (State.new c injected).Inv

/-- Every step keeps the invariants, from every state that meets them: the reserved region stays as constructed, the
framebuffer keeps its size (R37, R33), the parameters stay legal (R6), memory stays canonical. That the reserved region
survives a step is the spec's D7, log 10; canonical memory is the model's own form, log 22; the font's first byte is
D13, log 1. -/
def Obligations.StepsKeepTheInvariants : Prop :=
  ∀ s t : State, s.Inv → step s = .next t → t.Inv

/-- Every operation of a host, the step and the load among them, keeps the invariants (R37, R33, R6) from every state that
meets them; so they hold in every state a host can bring a core to, by any operations in any order. That the reserved
region survives a step is the spec's D7, log 10; canonical memory is the model's own form, log 22; the font's first byte
is D13, log 1. -/
def Obligations.ReachableStatesMeetTheInvariants : Prop :=
  (∀ (op : HostOp) (s : State), s.Inv → (hostCall op s).1.Inv) ∧ ∀ s : State, Reachable s → s.Inv

/-- Bits 15:12 of `I` and of `pc` are unobservable (R65): two states that differ at most in them step to results that
differ at most in them, and so does any number of steps. The reduction of addresses is the spec's D4, log 8; the widths
of `I` and `pc` are its D5 and D6, log 9. -/
def Obligations.UpperAddressBitsAreUnobservable : Prop :=
  ∀ s t : State, SameLow s t → SameLowResult (step s) (step t) ∧
    ∀ n, SameLowResult (Sys2Proof.core.run n s) (Sys2Proof.core.run n t)
end

