-- ==== Sys2Proof/Laws/State.lean ====
section
/-! SUPPORT. One lemma per field per update of State, so that no later proof unfolds a record update; then the same
for the register read and the updates made of them. -/

namespace Sys2Proof.Machine

@[simp] theorem State.setMem_mem (s : State) (m : Memory) : (s.setMem m).mem = m := rfl
@[simp] theorem State.setMem_V (s : State) (m : Memory) : (s.setMem m).V = s.V := rfl
@[simp] theorem State.setMem_I (s : State) (m : Memory) : (s.setMem m).I = s.I := rfl
@[simp] theorem State.setMem_pc (s : State) (m : Memory) : (s.setMem m).pc = s.pc := rfl
@[simp] theorem State.setMem_stack (s : State) (m : Memory) : (s.setMem m).stack = s.stack := rfl
@[simp] theorem State.setMem_sp (s : State) (m : Memory) : (s.setMem m).sp = s.sp := rfl
@[simp] theorem State.setMem_delay (s : State) (m : Memory) : (s.setMem m).delay = s.delay := rfl
@[simp] theorem State.setMem_sound (s : State) (m : Memory) : (s.setMem m).sound = s.sound := rfl
@[simp] theorem State.setMem_keypad (s : State) (m : Memory) : (s.setMem m).keypad = s.keypad := rfl
@[simp] theorem State.setMem_fb (s : State) (m : Memory) : (s.setMem m).fb = s.fb := rfl
@[simp] theorem State.setMem_redraw (s : State) (m : Memory) : (s.setMem m).redraw = s.redraw := rfl
@[simp] theorem State.setMem_beep (s : State) (m : Memory) : (s.setMem m).beep = s.beep := rfl
@[simp] theorem State.setMem_cfg (s : State) (m : Memory) : (s.setMem m).cfg = s.cfg := rfl
@[simp] theorem State.setMem_random (s : State) (m : Memory) : (s.setMem m).random = s.random := rfl
@[simp] theorem State.setMem_diagnostics (s : State) (m : Memory) : (s.setMem m).diagnostics = s.diagnostics := rfl
@[simp] theorem State.setMem_reg (s : State) (m : Memory) (r : Reg) : (s.setMem m).reg r = s.reg r := rfl

@[simp] theorem State.setV_mem (s : State) (v : Vector Byte 16) : (s.setV v).mem = s.mem := rfl
@[simp] theorem State.setV_V (s : State) (v : Vector Byte 16) : (s.setV v).V = v := rfl
@[simp] theorem State.setV_I (s : State) (v : Vector Byte 16) : (s.setV v).I = s.I := rfl
@[simp] theorem State.setV_pc (s : State) (v : Vector Byte 16) : (s.setV v).pc = s.pc := rfl
@[simp] theorem State.setV_stack (s : State) (v : Vector Byte 16) : (s.setV v).stack = s.stack := rfl
@[simp] theorem State.setV_sp (s : State) (v : Vector Byte 16) : (s.setV v).sp = s.sp := rfl
@[simp] theorem State.setV_delay (s : State) (v : Vector Byte 16) : (s.setV v).delay = s.delay := rfl
@[simp] theorem State.setV_sound (s : State) (v : Vector Byte 16) : (s.setV v).sound = s.sound := rfl
@[simp] theorem State.setV_keypad (s : State) (v : Vector Byte 16) : (s.setV v).keypad = s.keypad := rfl
@[simp] theorem State.setV_fb (s : State) (v : Vector Byte 16) : (s.setV v).fb = s.fb := rfl
@[simp] theorem State.setV_redraw (s : State) (v : Vector Byte 16) : (s.setV v).redraw = s.redraw := rfl
@[simp] theorem State.setV_beep (s : State) (v : Vector Byte 16) : (s.setV v).beep = s.beep := rfl
@[simp] theorem State.setV_cfg (s : State) (v : Vector Byte 16) : (s.setV v).cfg = s.cfg := rfl
@[simp] theorem State.setV_random (s : State) (v : Vector Byte 16) : (s.setV v).random = s.random := rfl
@[simp] theorem State.setV_diagnostics (s : State) (v : Vector Byte 16) : (s.setV v).diagnostics = s.diagnostics := rfl

@[simp] theorem State.setI_mem (s : State) (i : Word) : (s.setI i).mem = s.mem := rfl
@[simp] theorem State.setI_V (s : State) (i : Word) : (s.setI i).V = s.V := rfl
@[simp] theorem State.setI_I (s : State) (i : Word) : (s.setI i).I = i := rfl
@[simp] theorem State.setI_pc (s : State) (i : Word) : (s.setI i).pc = s.pc := rfl
@[simp] theorem State.setI_stack (s : State) (i : Word) : (s.setI i).stack = s.stack := rfl
@[simp] theorem State.setI_sp (s : State) (i : Word) : (s.setI i).sp = s.sp := rfl
@[simp] theorem State.setI_delay (s : State) (i : Word) : (s.setI i).delay = s.delay := rfl
@[simp] theorem State.setI_sound (s : State) (i : Word) : (s.setI i).sound = s.sound := rfl
@[simp] theorem State.setI_keypad (s : State) (i : Word) : (s.setI i).keypad = s.keypad := rfl
@[simp] theorem State.setI_fb (s : State) (i : Word) : (s.setI i).fb = s.fb := rfl
@[simp] theorem State.setI_redraw (s : State) (i : Word) : (s.setI i).redraw = s.redraw := rfl
@[simp] theorem State.setI_beep (s : State) (i : Word) : (s.setI i).beep = s.beep := rfl
@[simp] theorem State.setI_cfg (s : State) (i : Word) : (s.setI i).cfg = s.cfg := rfl
@[simp] theorem State.setI_random (s : State) (i : Word) : (s.setI i).random = s.random := rfl
@[simp] theorem State.setI_diagnostics (s : State) (i : Word) : (s.setI i).diagnostics = s.diagnostics := rfl
@[simp] theorem State.setI_reg (s : State) (i : Word) (r : Reg) : (s.setI i).reg r = s.reg r := rfl

@[simp] theorem State.setPc_mem (s : State) (p : Word) : (s.setPc p).mem = s.mem := rfl
@[simp] theorem State.setPc_V (s : State) (p : Word) : (s.setPc p).V = s.V := rfl
@[simp] theorem State.setPc_I (s : State) (p : Word) : (s.setPc p).I = s.I := rfl
@[simp] theorem State.setPc_pc (s : State) (p : Word) : (s.setPc p).pc = p := rfl
@[simp] theorem State.setPc_stack (s : State) (p : Word) : (s.setPc p).stack = s.stack := rfl
@[simp] theorem State.setPc_sp (s : State) (p : Word) : (s.setPc p).sp = s.sp := rfl
@[simp] theorem State.setPc_delay (s : State) (p : Word) : (s.setPc p).delay = s.delay := rfl
@[simp] theorem State.setPc_sound (s : State) (p : Word) : (s.setPc p).sound = s.sound := rfl
@[simp] theorem State.setPc_keypad (s : State) (p : Word) : (s.setPc p).keypad = s.keypad := rfl
@[simp] theorem State.setPc_fb (s : State) (p : Word) : (s.setPc p).fb = s.fb := rfl
@[simp] theorem State.setPc_redraw (s : State) (p : Word) : (s.setPc p).redraw = s.redraw := rfl
@[simp] theorem State.setPc_beep (s : State) (p : Word) : (s.setPc p).beep = s.beep := rfl
@[simp] theorem State.setPc_cfg (s : State) (p : Word) : (s.setPc p).cfg = s.cfg := rfl
@[simp] theorem State.setPc_random (s : State) (p : Word) : (s.setPc p).random = s.random := rfl
@[simp] theorem State.setPc_diagnostics (s : State) (p : Word) : (s.setPc p).diagnostics = s.diagnostics := rfl
@[simp] theorem State.setPc_reg (s : State) (p : Word) (r : Reg) : (s.setPc p).reg r = s.reg r := rfl

@[simp] theorem State.setStack_mem (s : State) (st : Vector Word 16) (n : Fin 17) : (s.setStack st n).mem = s.mem := rfl
@[simp] theorem State.setStack_V (s : State) (st : Vector Word 16) (n : Fin 17) : (s.setStack st n).V = s.V := rfl
@[simp] theorem State.setStack_I (s : State) (st : Vector Word 16) (n : Fin 17) : (s.setStack st n).I = s.I := rfl
@[simp] theorem State.setStack_pc (s : State) (st : Vector Word 16) (n : Fin 17) : (s.setStack st n).pc = s.pc := rfl
@[simp] theorem State.setStack_stack (s : State) (st : Vector Word 16) (n : Fin 17) : (s.setStack st n).stack = st := rfl
@[simp] theorem State.setStack_sp (s : State) (st : Vector Word 16) (n : Fin 17) : (s.setStack st n).sp = n := rfl
@[simp] theorem State.setStack_delay (s : State) (st : Vector Word 16) (n : Fin 17) : (s.setStack st n).delay = s.delay := rfl
@[simp] theorem State.setStack_sound (s : State) (st : Vector Word 16) (n : Fin 17) : (s.setStack st n).sound = s.sound := rfl
@[simp] theorem State.setStack_keypad (s : State) (st : Vector Word 16) (n : Fin 17) : (s.setStack st n).keypad = s.keypad := rfl
@[simp] theorem State.setStack_fb (s : State) (st : Vector Word 16) (n : Fin 17) : (s.setStack st n).fb = s.fb := rfl
@[simp] theorem State.setStack_redraw (s : State) (st : Vector Word 16) (n : Fin 17) : (s.setStack st n).redraw = s.redraw := rfl
@[simp] theorem State.setStack_beep (s : State) (st : Vector Word 16) (n : Fin 17) : (s.setStack st n).beep = s.beep := rfl
@[simp] theorem State.setStack_cfg (s : State) (st : Vector Word 16) (n : Fin 17) : (s.setStack st n).cfg = s.cfg := rfl
@[simp] theorem State.setStack_random (s : State) (st : Vector Word 16) (n : Fin 17) : (s.setStack st n).random = s.random := rfl
@[simp] theorem State.setStack_diagnostics (s : State) (st : Vector Word 16) (n : Fin 17) : (s.setStack st n).diagnostics = s.diagnostics := rfl
@[simp] theorem State.setStack_reg (s : State) (st : Vector Word 16) (n : Fin 17) (r : Reg) : (s.setStack st n).reg r = s.reg r := rfl

@[simp] theorem State.setDelay_mem (s : State) (b : Byte) : (s.setDelay b).mem = s.mem := rfl
@[simp] theorem State.setDelay_V (s : State) (b : Byte) : (s.setDelay b).V = s.V := rfl
@[simp] theorem State.setDelay_I (s : State) (b : Byte) : (s.setDelay b).I = s.I := rfl
@[simp] theorem State.setDelay_pc (s : State) (b : Byte) : (s.setDelay b).pc = s.pc := rfl
@[simp] theorem State.setDelay_stack (s : State) (b : Byte) : (s.setDelay b).stack = s.stack := rfl
@[simp] theorem State.setDelay_sp (s : State) (b : Byte) : (s.setDelay b).sp = s.sp := rfl
@[simp] theorem State.setDelay_delay (s : State) (b : Byte) : (s.setDelay b).delay = b := rfl
@[simp] theorem State.setDelay_sound (s : State) (b : Byte) : (s.setDelay b).sound = s.sound := rfl
@[simp] theorem State.setDelay_keypad (s : State) (b : Byte) : (s.setDelay b).keypad = s.keypad := rfl
@[simp] theorem State.setDelay_fb (s : State) (b : Byte) : (s.setDelay b).fb = s.fb := rfl
@[simp] theorem State.setDelay_redraw (s : State) (b : Byte) : (s.setDelay b).redraw = s.redraw := rfl
@[simp] theorem State.setDelay_beep (s : State) (b : Byte) : (s.setDelay b).beep = s.beep := rfl
@[simp] theorem State.setDelay_cfg (s : State) (b : Byte) : (s.setDelay b).cfg = s.cfg := rfl
@[simp] theorem State.setDelay_random (s : State) (b : Byte) : (s.setDelay b).random = s.random := rfl
@[simp] theorem State.setDelay_diagnostics (s : State) (b : Byte) : (s.setDelay b).diagnostics = s.diagnostics := rfl
@[simp] theorem State.setDelay_reg (s : State) (b : Byte) (r : Reg) : (s.setDelay b).reg r = s.reg r := rfl

@[simp] theorem State.setSound_mem (s : State) (b : Byte) : (s.setSound b).mem = s.mem := rfl
@[simp] theorem State.setSound_V (s : State) (b : Byte) : (s.setSound b).V = s.V := rfl
@[simp] theorem State.setSound_I (s : State) (b : Byte) : (s.setSound b).I = s.I := rfl
@[simp] theorem State.setSound_pc (s : State) (b : Byte) : (s.setSound b).pc = s.pc := rfl
@[simp] theorem State.setSound_stack (s : State) (b : Byte) : (s.setSound b).stack = s.stack := rfl
@[simp] theorem State.setSound_sp (s : State) (b : Byte) : (s.setSound b).sp = s.sp := rfl
@[simp] theorem State.setSound_delay (s : State) (b : Byte) : (s.setSound b).delay = s.delay := rfl
@[simp] theorem State.setSound_sound (s : State) (b : Byte) : (s.setSound b).sound = b := rfl
@[simp] theorem State.setSound_keypad (s : State) (b : Byte) : (s.setSound b).keypad = s.keypad := rfl
@[simp] theorem State.setSound_fb (s : State) (b : Byte) : (s.setSound b).fb = s.fb := rfl
@[simp] theorem State.setSound_redraw (s : State) (b : Byte) : (s.setSound b).redraw = s.redraw := rfl
@[simp] theorem State.setSound_beep (s : State) (b : Byte) : (s.setSound b).beep = s.beep := rfl
@[simp] theorem State.setSound_cfg (s : State) (b : Byte) : (s.setSound b).cfg = s.cfg := rfl
@[simp] theorem State.setSound_random (s : State) (b : Byte) : (s.setSound b).random = s.random := rfl
@[simp] theorem State.setSound_diagnostics (s : State) (b : Byte) : (s.setSound b).diagnostics = s.diagnostics := rfl
@[simp] theorem State.setSound_reg (s : State) (b : Byte) (r : Reg) : (s.setSound b).reg r = s.reg r := rfl

@[simp] theorem State.setKeys_mem (s : State) (k : Vector Bool 16) : (s.setKeys k).mem = s.mem := rfl
@[simp] theorem State.setKeys_V (s : State) (k : Vector Bool 16) : (s.setKeys k).V = s.V := rfl
@[simp] theorem State.setKeys_I (s : State) (k : Vector Bool 16) : (s.setKeys k).I = s.I := rfl
@[simp] theorem State.setKeys_pc (s : State) (k : Vector Bool 16) : (s.setKeys k).pc = s.pc := rfl
@[simp] theorem State.setKeys_stack (s : State) (k : Vector Bool 16) : (s.setKeys k).stack = s.stack := rfl
@[simp] theorem State.setKeys_sp (s : State) (k : Vector Bool 16) : (s.setKeys k).sp = s.sp := rfl
@[simp] theorem State.setKeys_delay (s : State) (k : Vector Bool 16) : (s.setKeys k).delay = s.delay := rfl
@[simp] theorem State.setKeys_sound (s : State) (k : Vector Bool 16) : (s.setKeys k).sound = s.sound := rfl
@[simp] theorem State.setKeys_keypad (s : State) (k : Vector Bool 16) : (s.setKeys k).keypad = k := rfl
@[simp] theorem State.setKeys_fb (s : State) (k : Vector Bool 16) : (s.setKeys k).fb = s.fb := rfl
@[simp] theorem State.setKeys_redraw (s : State) (k : Vector Bool 16) : (s.setKeys k).redraw = s.redraw := rfl
@[simp] theorem State.setKeys_beep (s : State) (k : Vector Bool 16) : (s.setKeys k).beep = s.beep := rfl
@[simp] theorem State.setKeys_cfg (s : State) (k : Vector Bool 16) : (s.setKeys k).cfg = s.cfg := rfl
@[simp] theorem State.setKeys_random (s : State) (k : Vector Bool 16) : (s.setKeys k).random = s.random := rfl
@[simp] theorem State.setKeys_diagnostics (s : State) (k : Vector Bool 16) : (s.setKeys k).diagnostics = s.diagnostics := rfl
@[simp] theorem State.setKeys_reg (s : State) (k : Vector Bool 16) (r : Reg) : (s.setKeys k).reg r = s.reg r := rfl

@[simp] theorem State.setFb_mem (s : State) (f : Framebuffer) : (s.setFb f).mem = s.mem := rfl
@[simp] theorem State.setFb_V (s : State) (f : Framebuffer) : (s.setFb f).V = s.V := rfl
@[simp] theorem State.setFb_I (s : State) (f : Framebuffer) : (s.setFb f).I = s.I := rfl
@[simp] theorem State.setFb_pc (s : State) (f : Framebuffer) : (s.setFb f).pc = s.pc := rfl
@[simp] theorem State.setFb_stack (s : State) (f : Framebuffer) : (s.setFb f).stack = s.stack := rfl
@[simp] theorem State.setFb_sp (s : State) (f : Framebuffer) : (s.setFb f).sp = s.sp := rfl
@[simp] theorem State.setFb_delay (s : State) (f : Framebuffer) : (s.setFb f).delay = s.delay := rfl
@[simp] theorem State.setFb_sound (s : State) (f : Framebuffer) : (s.setFb f).sound = s.sound := rfl
@[simp] theorem State.setFb_keypad (s : State) (f : Framebuffer) : (s.setFb f).keypad = s.keypad := rfl
@[simp] theorem State.setFb_fb (s : State) (f : Framebuffer) : (s.setFb f).fb = f := rfl
@[simp] theorem State.setFb_redraw (s : State) (f : Framebuffer) : (s.setFb f).redraw = s.redraw := rfl
@[simp] theorem State.setFb_beep (s : State) (f : Framebuffer) : (s.setFb f).beep = s.beep := rfl
@[simp] theorem State.setFb_cfg (s : State) (f : Framebuffer) : (s.setFb f).cfg = s.cfg := rfl
@[simp] theorem State.setFb_random (s : State) (f : Framebuffer) : (s.setFb f).random = s.random := rfl
@[simp] theorem State.setFb_diagnostics (s : State) (f : Framebuffer) : (s.setFb f).diagnostics = s.diagnostics := rfl
@[simp] theorem State.setFb_reg (s : State) (f : Framebuffer) (r : Reg) : (s.setFb f).reg r = s.reg r := rfl

@[simp] theorem State.setRedraw_mem (s : State) (b : Bool) : (s.setRedraw b).mem = s.mem := rfl
@[simp] theorem State.setRedraw_V (s : State) (b : Bool) : (s.setRedraw b).V = s.V := rfl
@[simp] theorem State.setRedraw_I (s : State) (b : Bool) : (s.setRedraw b).I = s.I := rfl
@[simp] theorem State.setRedraw_pc (s : State) (b : Bool) : (s.setRedraw b).pc = s.pc := rfl
@[simp] theorem State.setRedraw_stack (s : State) (b : Bool) : (s.setRedraw b).stack = s.stack := rfl
@[simp] theorem State.setRedraw_sp (s : State) (b : Bool) : (s.setRedraw b).sp = s.sp := rfl
@[simp] theorem State.setRedraw_delay (s : State) (b : Bool) : (s.setRedraw b).delay = s.delay := rfl
@[simp] theorem State.setRedraw_sound (s : State) (b : Bool) : (s.setRedraw b).sound = s.sound := rfl
@[simp] theorem State.setRedraw_keypad (s : State) (b : Bool) : (s.setRedraw b).keypad = s.keypad := rfl
@[simp] theorem State.setRedraw_fb (s : State) (b : Bool) : (s.setRedraw b).fb = s.fb := rfl
@[simp] theorem State.setRedraw_redraw (s : State) (b : Bool) : (s.setRedraw b).redraw = b := rfl
@[simp] theorem State.setRedraw_beep (s : State) (b : Bool) : (s.setRedraw b).beep = s.beep := rfl
@[simp] theorem State.setRedraw_cfg (s : State) (b : Bool) : (s.setRedraw b).cfg = s.cfg := rfl
@[simp] theorem State.setRedraw_random (s : State) (b : Bool) : (s.setRedraw b).random = s.random := rfl
@[simp] theorem State.setRedraw_diagnostics (s : State) (b : Bool) : (s.setRedraw b).diagnostics = s.diagnostics := rfl
@[simp] theorem State.setRedraw_reg (s : State) (b : Bool) (r : Reg) : (s.setRedraw b).reg r = s.reg r := rfl

@[simp] theorem State.setBeep_mem (s : State) (b : Bool) : (s.setBeep b).mem = s.mem := rfl
@[simp] theorem State.setBeep_V (s : State) (b : Bool) : (s.setBeep b).V = s.V := rfl
@[simp] theorem State.setBeep_I (s : State) (b : Bool) : (s.setBeep b).I = s.I := rfl
@[simp] theorem State.setBeep_pc (s : State) (b : Bool) : (s.setBeep b).pc = s.pc := rfl
@[simp] theorem State.setBeep_stack (s : State) (b : Bool) : (s.setBeep b).stack = s.stack := rfl
@[simp] theorem State.setBeep_sp (s : State) (b : Bool) : (s.setBeep b).sp = s.sp := rfl
@[simp] theorem State.setBeep_delay (s : State) (b : Bool) : (s.setBeep b).delay = s.delay := rfl
@[simp] theorem State.setBeep_sound (s : State) (b : Bool) : (s.setBeep b).sound = s.sound := rfl
@[simp] theorem State.setBeep_keypad (s : State) (b : Bool) : (s.setBeep b).keypad = s.keypad := rfl
@[simp] theorem State.setBeep_fb (s : State) (b : Bool) : (s.setBeep b).fb = s.fb := rfl
@[simp] theorem State.setBeep_redraw (s : State) (b : Bool) : (s.setBeep b).redraw = s.redraw := rfl
@[simp] theorem State.setBeep_beep (s : State) (b : Bool) : (s.setBeep b).beep = b := rfl
@[simp] theorem State.setBeep_cfg (s : State) (b : Bool) : (s.setBeep b).cfg = s.cfg := rfl
@[simp] theorem State.setBeep_random (s : State) (b : Bool) : (s.setBeep b).random = s.random := rfl
@[simp] theorem State.setBeep_diagnostics (s : State) (b : Bool) : (s.setBeep b).diagnostics = s.diagnostics := rfl
@[simp] theorem State.setBeep_reg (s : State) (b : Bool) (r : Reg) : (s.setBeep b).reg r = s.reg r := rfl

@[simp] theorem State.setRandom_mem (s : State) (r : RandomSource) : (s.setRandom r).mem = s.mem := rfl
@[simp] theorem State.setRandom_V (s : State) (r : RandomSource) : (s.setRandom r).V = s.V := rfl
@[simp] theorem State.setRandom_I (s : State) (r : RandomSource) : (s.setRandom r).I = s.I := rfl
@[simp] theorem State.setRandom_pc (s : State) (r : RandomSource) : (s.setRandom r).pc = s.pc := rfl
@[simp] theorem State.setRandom_stack (s : State) (r : RandomSource) : (s.setRandom r).stack = s.stack := rfl
@[simp] theorem State.setRandom_sp (s : State) (r : RandomSource) : (s.setRandom r).sp = s.sp := rfl
@[simp] theorem State.setRandom_delay (s : State) (r : RandomSource) : (s.setRandom r).delay = s.delay := rfl
@[simp] theorem State.setRandom_sound (s : State) (r : RandomSource) : (s.setRandom r).sound = s.sound := rfl
@[simp] theorem State.setRandom_keypad (s : State) (r : RandomSource) : (s.setRandom r).keypad = s.keypad := rfl
@[simp] theorem State.setRandom_fb (s : State) (r : RandomSource) : (s.setRandom r).fb = s.fb := rfl
@[simp] theorem State.setRandom_redraw (s : State) (r : RandomSource) : (s.setRandom r).redraw = s.redraw := rfl
@[simp] theorem State.setRandom_beep (s : State) (r : RandomSource) : (s.setRandom r).beep = s.beep := rfl
@[simp] theorem State.setRandom_cfg (s : State) (r : RandomSource) : (s.setRandom r).cfg = s.cfg := rfl
@[simp] theorem State.setRandom_random (s : State) (r : RandomSource) : (s.setRandom r).random = r := rfl
@[simp] theorem State.setRandom_diagnostics (s : State) (r : RandomSource) : (s.setRandom r).diagnostics = s.diagnostics := rfl
@[simp] theorem State.setRandom_reg (s : State) (r : RandomSource) (q : Reg) : (s.setRandom r).reg q = s.reg q := rfl

@[simp] theorem State.setDiagnostics_mem (s : State) (d : List Diagnostic) : (s.setDiagnostics d).mem = s.mem := rfl
@[simp] theorem State.setDiagnostics_V (s : State) (d : List Diagnostic) : (s.setDiagnostics d).V = s.V := rfl
@[simp] theorem State.setDiagnostics_I (s : State) (d : List Diagnostic) : (s.setDiagnostics d).I = s.I := rfl
@[simp] theorem State.setDiagnostics_pc (s : State) (d : List Diagnostic) : (s.setDiagnostics d).pc = s.pc := rfl
@[simp] theorem State.setDiagnostics_stack (s : State) (d : List Diagnostic) : (s.setDiagnostics d).stack = s.stack := rfl
@[simp] theorem State.setDiagnostics_sp (s : State) (d : List Diagnostic) : (s.setDiagnostics d).sp = s.sp := rfl
@[simp] theorem State.setDiagnostics_delay (s : State) (d : List Diagnostic) : (s.setDiagnostics d).delay = s.delay := rfl
@[simp] theorem State.setDiagnostics_sound (s : State) (d : List Diagnostic) : (s.setDiagnostics d).sound = s.sound := rfl
@[simp] theorem State.setDiagnostics_keypad (s : State) (d : List Diagnostic) : (s.setDiagnostics d).keypad = s.keypad := rfl
@[simp] theorem State.setDiagnostics_fb (s : State) (d : List Diagnostic) : (s.setDiagnostics d).fb = s.fb := rfl
@[simp] theorem State.setDiagnostics_redraw (s : State) (d : List Diagnostic) : (s.setDiagnostics d).redraw = s.redraw := rfl
@[simp] theorem State.setDiagnostics_beep (s : State) (d : List Diagnostic) : (s.setDiagnostics d).beep = s.beep := rfl
@[simp] theorem State.setDiagnostics_cfg (s : State) (d : List Diagnostic) : (s.setDiagnostics d).cfg = s.cfg := rfl
@[simp] theorem State.setDiagnostics_random (s : State) (d : List Diagnostic) : (s.setDiagnostics d).random = s.random := rfl
@[simp] theorem State.setDiagnostics_diagnostics (s : State) (d : List Diagnostic) : (s.setDiagnostics d).diagnostics = d := rfl
@[simp] theorem State.setDiagnostics_reg (s : State) (d : List Diagnostic) (r : Reg) : (s.setDiagnostics d).reg r = s.reg r := rfl

@[simp] theorem State.setReg_mem (s : State) (x : Reg) (b : Byte) : (s.setReg x b).mem = s.mem := rfl
@[simp] theorem State.setReg_I (s : State) (x : Reg) (b : Byte) : (s.setReg x b).I = s.I := rfl
@[simp] theorem State.setReg_pc (s : State) (x : Reg) (b : Byte) : (s.setReg x b).pc = s.pc := rfl
@[simp] theorem State.setReg_stack (s : State) (x : Reg) (b : Byte) : (s.setReg x b).stack = s.stack := rfl
@[simp] theorem State.setReg_sp (s : State) (x : Reg) (b : Byte) : (s.setReg x b).sp = s.sp := rfl
@[simp] theorem State.setReg_delay (s : State) (x : Reg) (b : Byte) : (s.setReg x b).delay = s.delay := rfl
@[simp] theorem State.setReg_sound (s : State) (x : Reg) (b : Byte) : (s.setReg x b).sound = s.sound := rfl
@[simp] theorem State.setReg_keypad (s : State) (x : Reg) (b : Byte) : (s.setReg x b).keypad = s.keypad := rfl
@[simp] theorem State.setReg_fb (s : State) (x : Reg) (b : Byte) : (s.setReg x b).fb = s.fb := rfl
@[simp] theorem State.setReg_redraw (s : State) (x : Reg) (b : Byte) : (s.setReg x b).redraw = s.redraw := rfl
@[simp] theorem State.setReg_beep (s : State) (x : Reg) (b : Byte) : (s.setReg x b).beep = s.beep := rfl
@[simp] theorem State.setReg_cfg (s : State) (x : Reg) (b : Byte) : (s.setReg x b).cfg = s.cfg := rfl
@[simp] theorem State.setReg_random (s : State) (x : Reg) (b : Byte) : (s.setReg x b).random = s.random := rfl
@[simp] theorem State.setReg_diagnostics (s : State) (x : Reg) (b : Byte) : (s.setReg x b).diagnostics = s.diagnostics := rfl

@[simp] theorem State.advance_mem (s : State) : (s.advance).mem = s.mem := rfl
@[simp] theorem State.advance_V (s : State) : (s.advance).V = s.V := rfl
@[simp] theorem State.advance_I (s : State) : (s.advance).I = s.I := rfl
@[simp] theorem State.advance_stack (s : State) : (s.advance).stack = s.stack := rfl
@[simp] theorem State.advance_sp (s : State) : (s.advance).sp = s.sp := rfl
@[simp] theorem State.advance_delay (s : State) : (s.advance).delay = s.delay := rfl
@[simp] theorem State.advance_sound (s : State) : (s.advance).sound = s.sound := rfl
@[simp] theorem State.advance_keypad (s : State) : (s.advance).keypad = s.keypad := rfl
@[simp] theorem State.advance_fb (s : State) : (s.advance).fb = s.fb := rfl
@[simp] theorem State.advance_redraw (s : State) : (s.advance).redraw = s.redraw := rfl
@[simp] theorem State.advance_beep (s : State) : (s.advance).beep = s.beep := rfl
@[simp] theorem State.advance_cfg (s : State) : (s.advance).cfg = s.cfg := rfl
@[simp] theorem State.advance_random (s : State) : (s.advance).random = s.random := rfl
@[simp] theorem State.advance_diagnostics (s : State) : (s.advance).diagnostics = s.diagnostics := rfl
@[simp] theorem State.advance_reg (s : State) (r : Reg) : (s.advance).reg r = s.reg r := rfl

@[simp] theorem State.emit_mem (s : State) (d : Diagnostic) : (s.emit d).mem = s.mem := rfl
@[simp] theorem State.emit_V (s : State) (d : Diagnostic) : (s.emit d).V = s.V := rfl
@[simp] theorem State.emit_I (s : State) (d : Diagnostic) : (s.emit d).I = s.I := rfl
@[simp] theorem State.emit_pc (s : State) (d : Diagnostic) : (s.emit d).pc = s.pc := rfl
@[simp] theorem State.emit_stack (s : State) (d : Diagnostic) : (s.emit d).stack = s.stack := rfl
@[simp] theorem State.emit_sp (s : State) (d : Diagnostic) : (s.emit d).sp = s.sp := rfl
@[simp] theorem State.emit_delay (s : State) (d : Diagnostic) : (s.emit d).delay = s.delay := rfl
@[simp] theorem State.emit_sound (s : State) (d : Diagnostic) : (s.emit d).sound = s.sound := rfl
@[simp] theorem State.emit_keypad (s : State) (d : Diagnostic) : (s.emit d).keypad = s.keypad := rfl
@[simp] theorem State.emit_fb (s : State) (d : Diagnostic) : (s.emit d).fb = s.fb := rfl
@[simp] theorem State.emit_redraw (s : State) (d : Diagnostic) : (s.emit d).redraw = s.redraw := rfl
@[simp] theorem State.emit_beep (s : State) (d : Diagnostic) : (s.emit d).beep = s.beep := rfl
@[simp] theorem State.emit_cfg (s : State) (d : Diagnostic) : (s.emit d).cfg = s.cfg := rfl
@[simp] theorem State.emit_random (s : State) (d : Diagnostic) : (s.emit d).random = s.random := rfl
@[simp] theorem State.emit_reg (s : State) (d : Diagnostic) (r : Reg) : (s.emit d).reg r = s.reg r := rfl

@[simp] theorem State.poke_V (s : State) (a : Nat) (b : Byte) : (s.poke a b).V = s.V := rfl
@[simp] theorem State.poke_I (s : State) (a : Nat) (b : Byte) : (s.poke a b).I = s.I := rfl
@[simp] theorem State.poke_pc (s : State) (a : Nat) (b : Byte) : (s.poke a b).pc = s.pc := rfl
@[simp] theorem State.poke_stack (s : State) (a : Nat) (b : Byte) : (s.poke a b).stack = s.stack := rfl
@[simp] theorem State.poke_sp (s : State) (a : Nat) (b : Byte) : (s.poke a b).sp = s.sp := rfl
@[simp] theorem State.poke_delay (s : State) (a : Nat) (b : Byte) : (s.poke a b).delay = s.delay := rfl
@[simp] theorem State.poke_sound (s : State) (a : Nat) (b : Byte) : (s.poke a b).sound = s.sound := rfl
@[simp] theorem State.poke_keypad (s : State) (a : Nat) (b : Byte) : (s.poke a b).keypad = s.keypad := rfl
@[simp] theorem State.poke_fb (s : State) (a : Nat) (b : Byte) : (s.poke a b).fb = s.fb := rfl
@[simp] theorem State.poke_redraw (s : State) (a : Nat) (b : Byte) : (s.poke a b).redraw = s.redraw := rfl
@[simp] theorem State.poke_beep (s : State) (a : Nat) (b : Byte) : (s.poke a b).beep = s.beep := rfl
@[simp] theorem State.poke_cfg (s : State) (a : Nat) (b : Byte) : (s.poke a b).cfg = s.cfg := rfl
@[simp] theorem State.poke_random (s : State) (a : Nat) (b : Byte) : (s.poke a b).random = s.random := rfl
@[simp] theorem State.poke_diagnostics (s : State) (a : Nat) (b : Byte) : (s.poke a b).diagnostics = s.diagnostics := rfl
@[simp] theorem State.poke_reg (s : State) (a : Nat) (b : Byte) (r : Reg) : (s.poke a b).reg r = s.reg r := rfl

@[simp] theorem State.timerPhase_mem (s : State) : (s.timerPhase).mem = s.mem := rfl
@[simp] theorem State.timerPhase_V (s : State) : (s.timerPhase).V = s.V := rfl
@[simp] theorem State.timerPhase_I (s : State) : (s.timerPhase).I = s.I := rfl
@[simp] theorem State.timerPhase_pc (s : State) : (s.timerPhase).pc = s.pc := rfl
@[simp] theorem State.timerPhase_stack (s : State) : (s.timerPhase).stack = s.stack := rfl
@[simp] theorem State.timerPhase_sp (s : State) : (s.timerPhase).sp = s.sp := rfl
@[simp] theorem State.timerPhase_keypad (s : State) : (s.timerPhase).keypad = s.keypad := rfl
@[simp] theorem State.timerPhase_fb (s : State) : (s.timerPhase).fb = s.fb := rfl
@[simp] theorem State.timerPhase_redraw (s : State) : (s.timerPhase).redraw = s.redraw := rfl
@[simp] theorem State.timerPhase_cfg (s : State) : (s.timerPhase).cfg = s.cfg := rfl
@[simp] theorem State.timerPhase_random (s : State) : (s.timerPhase).random = s.random := rfl
@[simp] theorem State.timerPhase_diagnostics (s : State) : (s.timerPhase).diagnostics = s.diagnostics := rfl
@[simp] theorem State.timerPhase_reg (s : State) (r : Reg) : (s.timerPhase).reg r = s.reg r := rfl

@[simp] theorem State.advance_pc (s : State) : s.advance.pc = s.pc + 2#16 := rfl
@[simp] theorem State.emit_diagnostics (s : State) (d : Diagnostic) : (s.emit d).diagnostics = s.diagnostics ++ [d] := rfl
@[simp] theorem State.poke_mem (s : State) (a : Nat) (b : Byte) : (s.poke a b).mem =
    s.mem.write s.cfg.font (cellOf a) b := rfl
@[simp] theorem State.timerPhase_delay (s : State) : s.timerPhase.delay = tickDelay s.delay := rfl
@[simp] theorem State.timerPhase_sound (s : State) : s.timerPhase.sound = tickDelay s.sound := rfl
@[simp] theorem State.timerPhase_beep (s : State) : s.timerPhase.beep = (s.beep || s.sound == 1#8) := rfl

/-! What memory reads as after an update. -/

@[simp] theorem State.setMem_byteAt (s : State) (m : Memory) (a : Nat) :
    (s.setMem m).byteAt a = m.read s.cfg.font a := rfl
@[simp] theorem State.setMem_memWf (s : State) (m : Memory) : (s.setMem m).memWf = m.wf s.cfg.font := rfl
@[simp] theorem State.setV_byteAt (s : State) (v : Vector Byte 16) (a : Nat) :
    (s.setV v).byteAt a = s.byteAt a := rfl
@[simp] theorem State.setV_memWf (s : State) (v : Vector Byte 16) : (s.setV v).memWf = s.memWf := rfl
@[simp] theorem State.setI_byteAt (s : State) (i : Word) (a : Nat) :
    (s.setI i).byteAt a = s.byteAt a := rfl
@[simp] theorem State.setI_memWf (s : State) (i : Word) : (s.setI i).memWf = s.memWf := rfl
@[simp] theorem State.setPc_byteAt (s : State) (p : Word) (a : Nat) :
    (s.setPc p).byteAt a = s.byteAt a := rfl
@[simp] theorem State.setPc_memWf (s : State) (p : Word) : (s.setPc p).memWf = s.memWf := rfl
@[simp] theorem State.setStack_byteAt (s : State) (st : Vector Word 16) (n : Fin 17) (a : Nat) :
    (s.setStack st n).byteAt a = s.byteAt a := rfl
@[simp] theorem State.setStack_memWf (s : State) (st : Vector Word 16) (n : Fin 17) : (s.setStack st n).memWf = s.memWf := rfl
@[simp] theorem State.setDelay_byteAt (s : State) (b : Byte) (a : Nat) :
    (s.setDelay b).byteAt a = s.byteAt a := rfl
@[simp] theorem State.setDelay_memWf (s : State) (b : Byte) : (s.setDelay b).memWf = s.memWf := rfl
@[simp] theorem State.setSound_byteAt (s : State) (b : Byte) (a : Nat) :
    (s.setSound b).byteAt a = s.byteAt a := rfl
@[simp] theorem State.setSound_memWf (s : State) (b : Byte) : (s.setSound b).memWf = s.memWf := rfl
@[simp] theorem State.setKeys_byteAt (s : State) (k : Vector Bool 16) (a : Nat) :
    (s.setKeys k).byteAt a = s.byteAt a := rfl
@[simp] theorem State.setKeys_memWf (s : State) (k : Vector Bool 16) : (s.setKeys k).memWf = s.memWf := rfl
@[simp] theorem State.setFb_byteAt (s : State) (f : Framebuffer) (a : Nat) :
    (s.setFb f).byteAt a = s.byteAt a := rfl
@[simp] theorem State.setFb_memWf (s : State) (f : Framebuffer) : (s.setFb f).memWf = s.memWf := rfl
@[simp] theorem State.setRedraw_byteAt (s : State) (b : Bool) (a : Nat) :
    (s.setRedraw b).byteAt a = s.byteAt a := rfl
@[simp] theorem State.setRedraw_memWf (s : State) (b : Bool) : (s.setRedraw b).memWf = s.memWf := rfl
@[simp] theorem State.setBeep_byteAt (s : State) (b : Bool) (a : Nat) :
    (s.setBeep b).byteAt a = s.byteAt a := rfl
@[simp] theorem State.setBeep_memWf (s : State) (b : Bool) : (s.setBeep b).memWf = s.memWf := rfl
@[simp] theorem State.setRandom_byteAt (s : State) (r : RandomSource) (a : Nat) :
    (s.setRandom r).byteAt a = s.byteAt a := rfl
@[simp] theorem State.setRandom_memWf (s : State) (r : RandomSource) : (s.setRandom r).memWf = s.memWf := rfl
@[simp] theorem State.setDiagnostics_byteAt (s : State) (d : List Diagnostic) (a : Nat) :
    (s.setDiagnostics d).byteAt a = s.byteAt a := rfl
@[simp] theorem State.setDiagnostics_memWf (s : State) (d : List Diagnostic) : (s.setDiagnostics d).memWf = s.memWf := rfl
@[simp] theorem State.setReg_byteAt (s : State) (x : Reg) (b : Byte) (a : Nat) :
    (s.setReg x b).byteAt a = s.byteAt a := rfl
@[simp] theorem State.setReg_memWf (s : State) (x : Reg) (b : Byte) : (s.setReg x b).memWf = s.memWf := rfl
@[simp] theorem State.advance_byteAt (s : State) (a : Nat) :
    s.advance.byteAt a = s.byteAt a := rfl
@[simp] theorem State.advance_memWf (s : State) : s.advance.memWf = s.memWf := rfl
@[simp] theorem State.emit_byteAt (s : State) (d : Diagnostic) (a : Nat) :
    (s.emit d).byteAt a = s.byteAt a := rfl
@[simp] theorem State.emit_memWf (s : State) (d : Diagnostic) : (s.emit d).memWf = s.memWf := rfl
@[simp] theorem State.timerPhase_byteAt (s : State) (a : Nat) :
    s.timerPhase.byteAt a = s.byteAt a := rfl
@[simp] theorem State.timerPhase_memWf (s : State) : s.timerPhase.memWf = s.memWf := rfl

/-- Reading the register just written gives the value. -/
@[simp] theorem State.setReg_reg_self (s : State) (x : Reg) (b : Byte) : (s.setReg x b).reg x = b := by
  simp [State.reg, State.setReg]

/-- Writing one register leaves every other one alone. -/
theorem State.setReg_reg_ne (s : State) (x r : Reg) (b : Byte) (h : r ≠ x) : (s.setReg x b).reg r = s.reg r := by
  have : x.val ≠ r.val := fun e => h (Fin.ext e.symm)
  simp [State.reg, State.setReg, this]

/-- A register after a register write, both cases. -/
theorem State.setReg_reg (s : State) (x r : Reg) (b : Byte) :
    (s.setReg x b).reg r = if r = x then b else s.reg r := by
  by_cases h : r = x
  · simp [h]
  · simp [h, s.setReg_reg_ne x r b h]

end Sys2Proof.Machine
end

