-- ==== Sys2Proof/Laws/Operands.lean ====
section
/-! SUPPORT. What the operand forms and the flags are as numbers: `KeySelect` (spec 45_keypad_timers.md R147), the key
number (R140), the register block (43_index_memory.md R130, R131), the flag values (42_alu.md R123). -/

namespace Sys2Proof.Machine

/-! Flags. -/

theorem flagByte_toNat (b : Bool) : (flagByte b).toNat = if b then 1 else 0 := by
  cases b <;> rfl

theorem carryFlag_toNat (a b : Byte) : (carryFlag a b).toNat = if 255 < a.toNat + b.toNat then 1 else 0 := by
  simp [carryFlag, flagByte_toNat]

theorem notBorrowFlag_toNat (a b : Byte) : (notBorrowFlag a b).toNat = if a.toNat < b.toNat then 0 else 1 := by
  rw [notBorrowFlag, flagByte_toNat]
  simp only [decide_eq_true_eq]
  split <;> split <;> omega

theorem shiftOutLow_toNat (v : Byte) : (shiftOutLow v).toNat = v.toNat % 2 := by
  rw [shiftOutLow, flagByte_toNat, BitVec.getLsbD, Nat.testBit_zero]
  simp only [decide_eq_true_eq]
  split <;> omega

theorem shiftOutHigh_toNat (v : Byte) : (shiftOutHigh v).toNat = v.toNat / 128 := by
  have hv : v.toNat < 256 := v.isLt
  rw [shiftOutHigh, flagByte_toNat, BitVec.getLsbD, Nat.testBit_eq_decide_div_mod_eq]
  simp only [decide_eq_true_eq]
  split <;> omega

/-- Writing flag then result leaves the result in its register (R110). -/
@[simp] theorem State.setFlagThen_reg_self (s : State) (f : Byte) (x : Reg) (b : Byte) :
    (s.setFlagThen f x b).reg x = b := by
  simp [State.setFlagThen]

/-- Every register after flag and result are written: the result wins where it is `VF` (R110). -/
theorem State.setFlagThen_reg (s : State) (f : Byte) (x r : Reg) (b : Byte) :
    (s.setFlagThen f x b).reg r = if r = x then b else if r = VF then f else s.reg r := by
  simp [State.setFlagThen, State.setReg_reg]

/-! The key number and `KeySelect`. -/

theorem keyNumber_val (v : Byte) : (keyNumber v).val = v.toNat % 16 := by
  simp [keyNumber, regOf]

/-- `lowestPressedFrom` finds nothing exactly when no key of the list is pressed, and otherwise the first pressed one. -/
theorem lowestPressedFrom_spec (l : List Bool) : (k : Nat) →
    (lowestPressedFrom k l = none ∧ ∀ j (h : j < l.length), l[j] = false) ∨
    (∃ j, ∃ h : j < l.length, lowestPressedFrom k l = some (k + j) ∧ l[j] = true ∧
      ∀ i (hi : i < j), l[i] = false) := by
  induction l with
  | nil => exact fun k => .inl ⟨rfl, fun j h => by simp at h⟩
  | cons b bs ih =>
    intro k
    cases b with
    | true => exact .inr ⟨0, by simp, rfl, rfl, fun i hi => by omega⟩
    | false =>
      obtain ⟨e, h⟩ | ⟨j, hj, e, hb, hlow⟩ := ih (k + 1)
      · refine .inl ⟨e, fun j hj => ?_⟩
        cases j with
        | zero => rfl
        | succ j => exact h j (by simpa using hj)
      · refine .inr ⟨j + 1, by simpa using hj, ?_, by simpa using hb, fun i hi => ?_⟩
        · rw [lowestPressedFrom, if_neg (by simp), e]; congr 1; omega
        · cases i with
          | zero => rfl
          | succ i => simpa using hlow i (by omega)

/-- `KeySelect` (R147): none exactly when no key is pressed; otherwise a pressed key, the lowest under the default
policy. -/
theorem keySelect_cases (p : KeyPolicy) (keypad : Vector Bool 16) :
    (keySelect p keypad = none ∧ ∀ k : Reg, keypad[k] = false) ∨
    (∃ k : Reg, keySelect p keypad = some k ∧ keypad[k] = true ∧
      (p = .lowest → ∀ j : Reg, j < k → keypad[j] = false)) := by
  obtain ⟨e, h⟩ | ⟨j, hj, e, hb, hlow⟩ := lowestPressedFrom_spec keypad.toList 0
  · refine .inl ⟨by simp [keySelect, e], fun k => ?_⟩
    simpa using h k.val (by simp)
  · have hj16 : j < 16 := by simpa using hj
    have hfin : (Fin.ofNat 16 (0 + j)) = (⟨j, hj16⟩ : Reg) := Fin.ext (by simp [Nat.mod_eq_of_lt hj16])
    have hp : keypad[(⟨j, hj16⟩ : Reg)] = true := by simpa using hb
    refine .inr ⟨chooseKey p keypad ⟨j, hj16⟩, by simp only [keySelect, e, hfin], ?_, ?_⟩
    · cases p with
      | lowest => exact hp
      | free =>
        unfold chooseKey
        dsimp only
        split
        · assumption
        · exact hp
    · rintro rfl i hi
      have hi' : i.val < j := hi
      simpa using hlow i.val hi'

/-! The register block and the sprite. -/

@[simp] theorem State.registerBlock_length (s : State) (x : Reg) : (s.registerBlock x).length = x.val + 1 := by
  have := x.isLt
  simp only [State.registerBlock, blockSize, List.length_take, Vector.length_toList]
  omega

theorem State.registerBlock_get (s : State) (x : Reg) (k : Nat) (h : k < (s.registerBlock x).length) :
    (s.registerBlock x)[k] = s.V[k]'(by simp at h; have := x.isLt; omega) := by
  simp [State.registerBlock]

/-- The registers after a block load (R131). -/
theorem State.loadedBlock_get (s : State) (x r : Reg) :
    (s.loadedBlock x)[r] = if r ≤ x then s.memRead (s.I.toNat + r.val) else s.reg r := by
  simp [State.loadedBlock, State.indexAddr]

@[simp] theorem State.spriteRows_length (s : State) (n : Nibble) : (s.spriteRows n).length = n.toNat := by
  simp [State.spriteRows]

theorem State.spriteRows_get (s : State) (n : Nibble) (k : Nat) (h : k < (s.spriteRows n).length) :
    (s.spriteRows n)[k] = s.memRead (s.I.toNat + k) := by
  simp [State.spriteRows, State.indexAddr]

end Sys2Proof.Machine
end

