-- ==== Sys2Proof/Laws/Display.lean ====
section
/-! SUPPORT. What the framebuffer's operations do, and that drawing keeps the framebuffer's size (spec 44_display.md
R135, R137; 10_state.md R33). -/

namespace Sys2Proof.Machine

theorem Framebuffer.wf_iff {w h : Nat} {f : Framebuffer} :
    f.wf w h = true ↔ f.length = h ∧ ∀ row ∈ f, row.length = w := by
  simp [Framebuffer.wf]

theorem Framebuffer.get_eq {f : Framebuffer} {x y : Nat} :
    f.get x y = ((f[y]?.getD [])[x]?).getD false := by
  simp [Framebuffer.get, List.getD_eq_getElem?_getD]

theorem Framebuffer.wf_blank (w h : Nat) : (Framebuffer.blank w h).wf w h = true := by
  rw [Framebuffer.wf_iff]
  exact ⟨by simp [Framebuffer.blank], fun row hr => by simp [List.eq_of_mem_replicate hr]⟩

/-- Every pixel of a cleared screen is 0 (R136). -/
@[simp] theorem Framebuffer.get_blank (w h x y : Nat) : (Framebuffer.blank w h).get x y = false := by
  rw [Framebuffer.get_eq, Framebuffer.blank, List.getElem?_replicate]
  split
  · simp [List.getElem?_replicate]; split <;> rfl
  · rfl

theorem Framebuffer.wf_set {w h : Nat} {f : Framebuffer} (x y : Nat) (b : Bool) (hf : f.wf w h = true) :
    (f.set x y b).wf w h = true := by
  rw [Framebuffer.wf_iff] at hf ⊢
  refine ⟨by simpa [Framebuffer.set] using hf.1, fun row hr => ?_⟩
  rw [Framebuffer.set] at hr
  obtain ⟨i, hi, rfl⟩ := List.getElem_of_mem hr
  rw [List.getElem_modify]
  split
  · simpa using hf.2 _ (List.getElem_mem _)
  · exact hf.2 _ (List.getElem_mem _)

/-- A pixel just written on the screen reads as written. -/
theorem Framebuffer.get_set_self {w h : Nat} {f : Framebuffer} {x y : Nat} (b : Bool) (hf : f.wf w h = true)
    (hx : x < w) (hy : y < h) : (f.set x y b).get x y = b := by
  rw [Framebuffer.wf_iff] at hf
  have hy' : y < f.length := by omega
  have hx' : x < f[y].length := by rw [hf.2 _ (List.getElem_mem hy')]; exact hx
  rw [Framebuffer.get_eq, Framebuffer.set, List.getElem?_modify]
  simp [hy', hx']

/-- Writing one pixel leaves every other one alone. -/
theorem Framebuffer.get_set_ne {f : Framebuffer} {x y x' y' : Nat} (b : Bool) (hne : x' ≠ x ∨ y' ≠ y) :
    (f.set x y b).get x' y' = f.get x' y' := by
  rw [Framebuffer.get_eq, Framebuffer.get_eq, Framebuffer.set, List.getElem?_modify]
  by_cases hy : y = y'
  · subst hy
    have hx : x ≠ x' := by rintro rfl; simp at hne
    cases f[y]? with
    | none => rfl
    | some row => simp [hx]
  · simp [hy]

/-! Drawing. -/

theorem drawPixel_wf {c : Config} {k : Canvas} (x y : Nat) (h : k.fb.wf c.width c.height = true) :
    (drawPixel c x y k).fb.wf c.width c.height = true :=
  Framebuffer.wf_set _ _ _ h

theorem drawColumns_wf {c : Config} (x y : Nat) (b : Byte) (cols : List Nat) : {k : Canvas} →
    k.fb.wf c.width c.height = true →
    (cols.foldl (fun k col => if b.getLsbD (7 - col) then drawPixel c (x + col) y k else k) k).fb.wf
      c.width c.height = true := by
  induction cols with
  | nil => exact fun h => h
  | cons col cols ih =>
    intro k h
    rw [List.foldl_cons]
    apply ih
    split
    · exact drawPixel_wf _ _ h
    · exact h

theorem drawRow_wf {c : Config} {k : Canvas} (x y : Nat) (b : Byte) (h : k.fb.wf c.width c.height = true) :
    (drawRow c x y b k).fb.wf c.width c.height = true :=
  drawColumns_wf x y b _ h

theorem drawRows_wf {c : Config} (x : Nat) (bs : List Byte) : (y : Nat) → {k : Canvas} →
    k.fb.wf c.width c.height = true → (drawRows c x y bs k).fb.wf c.width c.height = true := by
  induction bs with
  | nil => exact fun y k h => h
  | cons b bs ih => exact fun y k h => ih (y + 1) (drawRow_wf x y b h)

/-- Drawing keeps the size of the framebuffer (R33, R138(b)). -/
theorem State.drawSprite_wf (s : State) (x y : Reg) (n : Nibble) (h : s.fb.wf s.cfg.width s.cfg.height = true) :
    (s.drawSprite x y n).fb.wf s.cfg.width s.cfg.height = true :=
  drawRows_wf _ _ _ h

end Sys2Proof.Machine
end

