-- ==== Sys2Proof/Laws/Memory.lean ====
section
/-! SUPPORT. What memory reads and writes do (spec 20_memory.md R52, R60(b)), and that every write keeps the canonical
form of the list. -/

namespace Sys2Proof.Machine

variable {f : Font}

@[simp] theorem Memory.read_nil (a : Nat) : Memory.read f [] a = Memory.initial f a := rfl

theorem Memory.read_cons (b : Nat) (v : Byte) (rest : Memory) (a : Nat) :
    Memory.read f ((b, v) :: rest) a = if a = b then v else Memory.read f rest a := rfl

theorem Memory.wfFrom_cons (lo b : Nat) (v : Byte) (rest : Memory) :
    Memory.wfFrom f lo ((b, v) :: rest) = true ↔
      lo ≤ b ∧ b < 4096 ∧ v ≠ Memory.initial f b ∧ Memory.wfFrom f (b + 1) rest = true := by
  simp [Memory.wfFrom, and_assoc]

/-- A canonical memory from some address up is canonical from any lower one. -/
theorem Memory.wfFrom_mono {lo lo' : Nat} (h : lo' ≤ lo) : {m : Memory} → Memory.wfFrom f lo m = true →
    Memory.wfFrom f lo' m = true
  | [], _ => rfl
  | (b, v) :: rest, hm => by
    rw [Memory.wfFrom_cons] at hm ⊢
    exact ⟨h.trans hm.1, hm.2⟩

/-- Below its first address a canonical memory reads as after construction. -/
theorem Memory.read_below {lo a : Nat} (h : a < lo) : {m : Memory} → Memory.wfFrom f lo m = true →
    m.read f a = Memory.initial f a
  | [], _ => rfl
  | (b, v) :: rest, hm => by
    rw [Memory.wfFrom_cons] at hm
    have hne : a ≠ b := by omega
    rw [Memory.read_cons, if_neg hne]
    exact Memory.read_below (lo := b + 1) (by omega) hm.2.2.2

theorem Memory.read_put_ne {a b : Nat} (v : Byte) (rest : Memory) (h : b ≠ a) :
    (Memory.put f a v rest).read f b = rest.read f b := by
  unfold Memory.put
  split
  · rfl
  · rw [Memory.read_cons, if_neg h]

theorem Memory.read_put_self {a : Nat} (v : Byte) {rest : Memory} (h : Memory.wfFrom f (a + 1) rest = true) :
    (Memory.put f a v rest).read f a = v := by
  unfold Memory.put
  split
  · rename_i hv
    rw [Memory.read_below (lo := a + 1) (by omega) h, hv]
  · rw [Memory.read_cons, if_pos rfl]

theorem Memory.wfFrom_put {lo a : Nat} (v : Byte) {rest : Memory} (hlo : lo ≤ a) (ha : a < 4096)
    (h : Memory.wfFrom f (a + 1) rest = true) : Memory.wfFrom f lo (Memory.put f a v rest) = true := by
  unfold Memory.put
  split
  · exact Memory.wfFrom_mono (by omega) h
  · rename_i hv
    exact (Memory.wfFrom_cons ..).mpr ⟨hlo, ha, hv, h⟩

/-- A write leaves every other address alone, whatever the list. -/
theorem Memory.read_write_ne {a b : Nat} (v : Byte) (h : b ≠ a) : (m : Memory) → (m.write f a v).read f b = m.read f b
  | [] => by rw [Memory.write, Memory.read_put_ne v [] h]
  | (c, w) :: rest => by
    unfold Memory.write
    split
    · exact Memory.read_put_ne v _ h
    · split
      · subst c
        rw [Memory.read_put_ne v _ h, Memory.read_cons, if_neg h]
      · rw [Memory.read_cons, Memory.read_cons, Memory.read_write_ne v h rest]

/-- A read after a write to the same address gives the value written. -/
theorem Memory.read_write_self {lo a : Nat} (v : Byte) : {m : Memory} → Memory.wfFrom f lo m = true →
    (m.write f a v).read f a = v
  | [], _ => Memory.read_put_self v rfl
  | (c, w) :: rest, h => by
    have hc := (Memory.wfFrom_cons ..).mp h
    unfold Memory.write
    split
    · exact Memory.read_put_self v ((Memory.wfFrom_cons ..).mpr ⟨by omega, hc.2⟩)
    · split
      · subst c
        exact Memory.read_put_self v hc.2.2.2
      · rename_i hne
        rw [Memory.read_cons, if_neg hne]
        exact Memory.read_write_self v hc.2.2.2

theorem Memory.wfFrom_write {lo a : Nat} (v : Byte) (ha : a < 4096) : {m : Memory} → Memory.wfFrom f lo m = true →
    Memory.wfFrom f (min lo a) (m.write f a v) = true
  | [], _ => Memory.wfFrom_put v (by omega) ha rfl
  | (c, w) :: rest, h => by
    have hc := (Memory.wfFrom_cons ..).mp h
    unfold Memory.write
    split
    · exact Memory.wfFrom_put v (by omega) ha ((Memory.wfFrom_cons ..).mpr ⟨by omega, hc.2⟩)
    · split
      · subst c
        exact Memory.wfFrom_put v (by omega) ha hc.2.2.2
      · refine (Memory.wfFrom_cons ..).mpr ⟨by omega, hc.2.1, hc.2.2.1, ?_⟩
        exact Memory.wfFrom_mono (by omega) (Memory.wfFrom_write v ha hc.2.2.2)

@[simp] theorem Memory.wf_nil : Memory.wf f [] = true := rfl

/-- Every write to one of the 4096 cells keeps the canonical form. -/
theorem Memory.wf_write {a : Nat} (v : Byte) (ha : a < 4096) {m : Memory} (h : m.wf f = true) :
    (m.write f a v).wf f = true := by
  have := Memory.wfFrom_write v ha h
  simpa [Memory.wf] using this

theorem cellOf_lt (a : Nat) : cellOf a < 4096 := Nat.mod_lt _ (by decide)

/-! A direct write of one cell (R55). -/

theorem State.poke_wf (s : State) (a : Nat) (v : Byte) (h : s.memWf = true) : (s.poke a v).memWf = true :=
  Memory.wf_write v (cellOf_lt a) h

theorem State.poke_read_other (s : State) (a : Nat) (v : Byte) {b : Nat} (h : b ≠ cellOf a) :
    (s.poke a v).byteAt b = s.byteAt b :=
  Memory.read_write_ne v h s.mem

theorem State.poke_read_self (s : State) (a : Nat) (v : Byte) (h : s.memWf = true) :
    (s.poke a v).byteAt (cellOf a) = v :=
  Memory.read_write_self v h

/-! `MemWrite` (R54): one lemma that says everything it can do, and what follows. -/

/-- `MemWrite` either reports a suppressed write or writes one cell of the program region. -/
theorem State.memWrite_cases (s : State) (a : Nat) (v : Byte) :
    (cellOf a < 0x200 ∧ s.memWrite a v = s.emit (.reservedWrite s.pc (BitVec.ofNat 12 (cellOf a)))) ∨
    (0x200 ≤ cellOf a ∧ s.memWrite a v = s.poke a v) := by
  unfold State.memWrite
  split
  · exact .inl ⟨‹_›, rfl⟩
  · exact .inr ⟨Nat.le_of_not_lt ‹_›, rfl⟩

theorem State.memWrite_wf (s : State) (a : Nat) (v : Byte) (h : s.memWf = true) :
    (s.memWrite a v).memWf = true := by
  obtain ⟨-, e⟩ | ⟨-, e⟩ := s.memWrite_cases a v <;> rw [e]
  · exact h
  · exact s.poke_wf a v h

/-- A cell of the reserved region, or one a `MemWrite` does not aim at, reads as before. -/
theorem State.memWrite_read_other (s : State) (a : Nat) (v : Byte) {b : Nat} (h : b = cellOf a → b < 0x200) :
    (s.memWrite a v).byteAt b = s.byteAt b := by
  obtain ⟨-, e⟩ | ⟨hge, e⟩ := s.memWrite_cases a v <;> rw [e]
  · rfl
  · exact s.poke_read_other a v fun hb => by have := h hb; omega

theorem State.memWrite_read_self (s : State) (a : Nat) (v : Byte) (hwf : s.memWf = true) (h : 0x200 ≤ cellOf a) :
    (s.memWrite a v).byteAt (cellOf a) = v := by
  obtain ⟨hlt, -⟩ | ⟨-, e⟩ := s.memWrite_cases a v
  · omega
  · rw [e]; exact s.poke_read_self a v hwf

/-- The event of a `MemWrite`, if any (R54). -/
def reservedEvents (pc : Word) (a : Nat) : List Diagnostic :=
  if cellOf a < 0x200 then [.reservedWrite pc (BitVec.ofNat 12 (cellOf a))] else []

/-- A `MemWrite` changes memory and the events of the step, nothing else. -/
theorem State.memWrite_eq (s : State) (a : Nat) (v : Byte) :
    s.memWrite a v =
      (s.setMem (s.memWrite a v).mem).setDiagnostics (s.diagnostics ++ reservedEvents s.pc a) := by
  obtain ⟨hlt, e⟩ | ⟨hge, e⟩ := s.memWrite_cases a v
  · rw [e, reservedEvents, if_pos hlt]; rfl
  · rw [e, reservedEvents, if_neg (by omega), List.append_nil]; rfl

/-! Consecutive stores (R129, R130). -/

/-- Stores change memory and the events of the step, nothing else; the events come in the order of the bytes. -/
theorem State.storeBytes_eq (a : Nat) (bs : List Byte) : (s : State) →
    s.storeBytes a bs = (s.setMem (s.storeBytes a bs).mem).setDiagnostics
      (s.diagnostics ++ (List.range' a bs.length).flatMap (reservedEvents s.pc)) := by
  induction bs generalizing a with
  | nil => intro s; simp [State.storeBytes, State.setMem, State.setDiagnostics]
  | cons b bs ih =>
    intro s
    rw [State.storeBytes, ih (a + 1) (s.memWrite a b), State.memWrite_eq s a b]
    simp [State.setMem, State.setDiagnostics, List.range'_succ]

theorem State.storeBytes_wf (a : Nat) (bs : List Byte) : (s : State) → s.memWf = true →
    (s.storeBytes a bs).memWf = true := by
  induction bs generalizing a with
  | nil => exact fun s h => h
  | cons b bs ih => exact fun s h => ih (a + 1) _ (s.memWrite_wf a b h)

/-- A cell of the reserved region, or one that no store aims at, reads as before. -/
theorem State.storeBytes_read_other {c : Nat} (a : Nat) (bs : List Byte) : (s : State) →
    (∀ k < bs.length, c = cellOf (a + k) → c < 0x200) → (s.storeBytes a bs).byteAt c = s.byteAt c := by
  induction bs generalizing a with
  | nil => exact fun s _ => rfl
  | cons b bs ih =>
    intro s h
    rw [State.storeBytes, ih (a + 1) (s.memWrite a b), s.memWrite_read_other a b]
    · exact h 0 (by simp)
    · intro k hk hc
      exact h (k + 1) (by simpa using hk) (by rw [hc]; congr 1; omega)

/-- A store of at most 4096 bytes puts each byte that falls in the program region where it is aimed. -/
theorem State.storeBytes_read (a : Nat) (bs : List Byte) : (s : State) → s.memWf = true → bs.length ≤ 4096 →
    ∀ k (hk : k < bs.length), 0x200 ≤ cellOf (a + k) → (s.storeBytes a bs).byteAt (cellOf (a + k)) = bs[k] := by
  induction bs generalizing a with
  | nil => intro s _ _ k hk; simp at hk
  | cons b bs ih =>
    intro s hwf hlen k hk hge
    simp only [List.length_cons] at hlen hk
    cases k with
    | zero =>
      rw [State.storeBytes, State.storeBytes_read_other]
      · simpa using s.memWrite_read_self a b hwf (by simpa using hge)
      · intro j hj hc
        simp only [cellOf, Config.memSize] at hc
        omega
    | succ k =>
      have e : a + (k + 1) = a + 1 + k := by omega
      rw [e] at hge ⊢
      exact ih (a + 1) _ (s.memWrite_wf a b hwf) (by omega) k (by omega) hge

/-! The host's direct writes (R55, R151). -/

theorem State.pokeBytes_eq (a : Nat) (bs : List Byte) : (s : State) →
    s.pokeBytes a bs = s.setMem (s.pokeBytes a bs).mem := by
  induction bs generalizing a with
  | nil => exact fun s => rfl
  | cons b bs ih => intro s; rw [State.pokeBytes, ih (a + 1) (s.poke a b)]; rfl

theorem State.pokeBytes_wf (a : Nat) (bs : List Byte) : (s : State) → s.memWf = true →
    (s.pokeBytes a bs).memWf = true := by
  induction bs generalizing a with
  | nil => exact fun s h => h
  | cons b bs ih => exact fun s h => ih (a + 1) _ (s.poke_wf a b h)

theorem State.pokeBytes_read_other {c : Nat} (a : Nat) (bs : List Byte) : (s : State) →
    (∀ k < bs.length, c ≠ cellOf (a + k)) → (s.pokeBytes a bs).byteAt c = s.byteAt c := by
  induction bs generalizing a with
  | nil => exact fun s _ => rfl
  | cons b bs ih =>
    intro s h
    rw [State.pokeBytes, ih (a + 1) (s.poke a b)]
    · exact s.poke_read_other a b (h 0 (by simp))
    · intro k hk
      have := h (k + 1) (by simpa using hk)
      rwa [show a + (k + 1) = a + 1 + k by omega] at this

theorem State.pokeBytes_read (a : Nat) (bs : List Byte) : (s : State) → s.memWf = true → bs.length ≤ 4096 →
    ∀ k (hk : k < bs.length), (s.pokeBytes a bs).byteAt (cellOf (a + k)) = bs[k] := by
  induction bs generalizing a with
  | nil => intro s _ _ k hk; simp at hk
  | cons b bs ih =>
    intro s hwf hlen k hk
    simp only [List.length_cons] at hlen hk
    cases k with
    | zero =>
      rw [State.pokeBytes, State.pokeBytes_read_other]
      · exact s.poke_read_self a b hwf
      · intro j hj hc
        simp only [cellOf, Config.memSize] at hc
        omega
    | succ k =>
      rw [show a + (k + 1) = a + 1 + k by omega]
      exact ih (a + 1) _ (s.poke_wf a b hwf) (by omega) k (by omega)

end Sys2Proof.Machine
end

