-- ==== Sys2Proof/Laws/Ops.lean ====
section
/-! SUPPORT. For each shared operation, once, everything it can do: the stack, the timers, the unknown opcode, the end
of a step, the step itself and the host's call of it. -/

namespace Sys2Proof.Machine

/-- `Push` faults exactly when 16 entries are in use; otherwise it goes on with one entry more (R28). -/
theorem State.push_cases (s : State) (v : Word) (k : State → Result) :
    (s.sp.val = 16 ∧ s.push v k = .fault (.stackOverflow s.pc)) ∨
    (∃ h : s.sp.val < 16, s.push v k = k (s.setStack (s.stack.set s.sp.val v h) ⟨s.sp.val + 1, by omega⟩)) := by
  by_cases h : s.sp.val < 16
  · exact .inr ⟨h, by rw [State.push, dif_pos h]⟩
  · exact .inl ⟨by omega, by rw [State.push, dif_neg h]; rfl⟩

/-- `Pop` faults exactly when the stack is empty; otherwise it goes on with the top entry and one entry less (R28). -/
theorem State.pop_cases (s : State) (k : Word → State → Result) :
    (s.sp.val = 0 ∧ s.pop k = .fault (.stackUnderflow s.pc)) ∨
    (∃ (n : Nat) (h : n < 16), s.sp.val = n + 1 ∧ s.pop k = k (s.stack[n]) (s.setStack s.stack ⟨n, by omega⟩)) := by
  by_cases h : s.sp.val = 0
  · exact .inl ⟨h, by rw [State.pop, dif_pos h]; rfl⟩
  · refine .inr ⟨s.sp.val - 1, by omega, by omega, ?_⟩
    rw [State.pop, dif_neg h]

@[simp] theorem tickDelay_toNat (d : Byte) : (tickDelay d).toNat = d.toNat - 1 := by
  unfold tickDelay
  split
  · subst d; rfl
  · rename_i h
    have h0 : d.toNat ≠ 0 := fun e => h (BitVec.eq_of_toNat_eq e)
    have h1 : d.toNat < 256 := d.isLt
    rw [BitVec.toNat_sub]
    simp only [BitVec.toNat_ofNat]
    omega

/-- The unknown opcode is a reported no-op or the fault `IllegalOpcode`, as the configuration says (R95). -/
theorem execUnknown_cases (op : Word) (s : State) :
    (s.cfg.illegalMode = .permissive ∧ execUnknown op s = .next (s.emit (.unknownOpcode s.pc op)).advance) ∨
    (s.cfg.illegalMode = .strict ∧ execUnknown op s = .fault (.illegalOpcode s.pc op)) := by
  unfold execUnknown
  cases h : s.cfg.illegalMode
  · exact .inl ⟨rfl, rfl⟩
  · exact .inr ⟨rfl, rfl⟩

/-- A step completes exactly when its execute phase did, and then in the state the timer phase leaves (R94, R96). -/
theorem completeStep_next {r : Result} {t : State} :
    completeStep r = .next t ↔ ∃ u, r = .next u ∧ t = u.timerPhase := by
  cases r <;> simp [completeStep, eq_comm]

theorem completeStep_fault {r : Result} {f : Fault} : completeStep r = .fault f ↔ r = .fault f := by
  cases r <;> simp [completeStep]

theorem completeStep_refused {r : Result} {q : Refusal} : completeStep r = .refused q ↔ r = .refused q := by
  cases r <;> simp [completeStep]

/-- The state the execute phase of a step starts in. -/
abbrev State.forgotten (s : State) : State := s.setDiagnostics []

/-- Everything a completed step can be: a decoded instruction or a permissive unknown opcode, then the timer phase. -/
theorem step_next_cases {s t : State} (h : step s = .next t) :
    (∃ i u, decodeWord s.fetchWord = .instr i ∧ exec i s.forgotten = .next u ∧ t = u.timerPhase) ∨
    (∃ op, decodeWord s.fetchWord = .unknown op ∧ s.cfg.illegalMode = .permissive ∧
      t = ((s.forgotten.emit (.unknownOpcode s.pc op)).advance).timerPhase) := by
  unfold step at h
  split at h
  · rename_i i hi
    obtain ⟨u, hu, rfl⟩ := completeStep_next.mp h
    exact .inl ⟨i, u, hi, hu, rfl⟩
  · rename_i op hop
    obtain ⟨u, hu, rfl⟩ := completeStep_next.mp h
    obtain ⟨hm, e⟩ | ⟨-, e⟩ := execUnknown_cases op s.forgotten
    · rw [e] at hu
      cases hu
      exact .inr ⟨op, hop, hm, rfl⟩
    · rw [e] at hu
      cases hu

/-- What the host's call of `step` does: the core moves exactly when the step completes (R152, R168). -/
theorem callStep_cases (s : State) :
    (∃ t, step s = .next t ∧ callStep s = (t, .completed t.diagnostics)) ∨
    (∃ f, step s = .fault f ∧ callStep s = (s, .faulted f)) ∨
    (∃ r, step s = .refused r ∧ callStep s = (s, .refused r)) := by
  unfold callStep
  cases h : step s with
  | next t => exact .inl ⟨t, rfl, rfl⟩
  | fault f => exact .inr (.inl ⟨f, rfl, rfl⟩)
  | refused r => exact .inr (.inr ⟨r, rfl, rfl⟩)

/-- What `loadProgram` does: a program that fits is written from 0x200 up, any other changes nothing (R151). -/
theorem callLoad_cases (bytes : List Byte) (s : State) :
    (bytes.length ≤ 3584 ∧ callLoad bytes s = (s.pokeBytes 0x200 bytes, .done)) ∨
    (3584 < bytes.length ∧ callLoad bytes s = (s, .loadFailed .programTooLarge)) := by
  by_cases h : bytes.length ≤ 3584
  · exact .inl ⟨h, by simp [callLoad, loadProgram, programFits, h]⟩
  · exact .inr ⟨by omega, by simp [callLoad, loadProgram, programFits, h]⟩

end Sys2Proof.Machine
end

