-- ==== Sys2Proof/Laws/Exec.lean ====
section
/-! SUPPORT. What an execute phase that completes can do, said once over all instructions, so that no claim about a
step has to go through the meanings again (spec 40_step_cycle.md R93). -/

namespace Sys2Proof.Machine

/-- Stores leave every field but memory and the events as it was. -/
structure StoresOnly (s t : State) : Prop where
  V : t.V = s.V
  I : t.I = s.I
  pc : t.pc = s.pc
  stack : t.stack = s.stack
  sp : t.sp = s.sp
  delay : t.delay = s.delay
  sound : t.sound = s.sound
  keypad : t.keypad = s.keypad
  fb : t.fb = s.fb
  redraw : t.redraw = s.redraw
  beep : t.beep = s.beep
  cfg : t.cfg = s.cfg
  random : t.random = s.random

theorem State.storeBytes_only (s : State) (a : Nat) (bs : List Byte) : StoresOnly s (s.storeBytes a bs) := by
  rw [State.storeBytes_eq]
  constructor <;> rfl

theorem State.storeBytes_diagnostics (s : State) (a : Nat) (bs : List Byte) :
    (s.storeBytes a bs).diagnostics = s.diagnostics ++ (List.range' a bs.length).flatMap (reservedEvents s.pc) := by
  rw [State.storeBytes_eq]
  rfl

/-- The effects of instruction `i` from `s` to `t`: each part of the state, by the instructions that may touch it. -/
structure ExecEffects (i : Instr) (s t : State) : Prop where
  keypad : t.keypad = s.keypad
  cfg : t.cfg = s.cfg
  beep : t.beep = s.beep
  stack : (∀ nnn, i ≠ .op2NNN nnn) → i ≠ .op00EE → t.stack = s.stack ∧ t.sp = s.sp
  display : i ≠ .op00E0 → (∀ x y n, i ≠ .opDXYN x y n) → t.fb = s.fb ∧ t.redraw = s.redraw
  redraw : (i = .op00E0 ∨ ∃ x y n, i = .opDXYN x y n) → t.redraw = true
  displaySize : s.fb.wf s.cfg.width s.cfg.height = true → t.fb.wf s.cfg.width s.cfg.height = true
  random : (∀ x nn, i ≠ .opCXNN x nn) → t.random = s.random
  index : (∀ nnn, i ≠ .opANNN nnn) → (∀ x, i ≠ .opFX1E x) → (∀ x, i ≠ .opFX29 x) → (∀ x, i ≠ .opFX55 x) →
    (∀ x, i ≠ .opFX65 x) → t.I = s.I
  delay : (∀ x, i ≠ .opFX15 x) → t.delay = s.delay
  sound : (∀ x, i ≠ .opFX18 x) → t.sound = s.sound
  memory : (∀ x, i ≠ .opFX33 x) → (∀ x, i ≠ .opFX55 x) → t.mem = s.mem ∧ t.diagnostics = s.diagnostics
  reserved : ∀ a, a < 0x200 → t.byteAt a = s.byteAt a
  canonical : s.memWf = true → t.memWf = true
  events : (∃ x, i = .opFX33 x ∨ i = .opFX55 x) → ∃ n, n ≤ 16 ∧
    t.diagnostics = s.diagnostics ++ (List.range' s.I.toNat n).flatMap (reservedEvents s.pc)

/-- A skip moves `pc` and nothing else (R100). -/
theorem ExecEffects.of_skip {i : Instr} (s : State) (b : Bool) (h1 : i ≠ .op00E0) (h2 : ∀ x y n, i ≠ .opDXYN x y n)
    (h3 : ∀ x, i ≠ .opFX33 x) (h4 : ∀ x, i ≠ .opFX55 x) : ExecEffects i s (s.skipIf b) := by
  cases b <;> constructor <;> intros <;> simp_all [State.skipIf]

/-- Every execute phase that completes has these effects. -/
theorem exec_effects {i : Instr} {s t : State} (h : exec i s = .next t) : ExecEffects i s t := by
  cases i
  case op00EE =>
    obtain ⟨-, e⟩ | ⟨n, hn, -, e⟩ := s.pop_cases fun v t => .next (t.setPc (v + 2#16)) <;>
      cases e.symm.trans h
    constructor <;> intros <;> simp_all
  case op2NNN nnn =>
    obtain ⟨-, e⟩ | ⟨hn, e⟩ := s.push_cases s.pc fun t => .next (t.setPc nnn.zext) <;> cases e.symm.trans h
    constructor <;> intros <;> simp_all
  case opFX0A x =>
    rw [exec, execFX0A] at h
    split at h <;> cases h <;> constructor <;> intros <;> simp_all
  case op3XNN | op4XNN | op5XY0 | op9XY0 | opEX9E | opEXA1 =>
    all_goals
      obtain rfl := Host.Outcome.next.inj h
      apply ExecEffects.of_skip <;> simp
  case opFX33 x =>
    obtain rfl := Host.Outcome.next.inj h
    obtain ⟨⟩ := s.storeBytes_only (s.indexAddr 0) (decimalDigits (s.reg x))
    constructor <;> intros <;> simp_all
    · exact State.storeBytes_read_other _ _ _ fun _ _ _ => by assumption
    · exact State.storeBytes_wf _ _ _ (by assumption)
    · exact ⟨3, by omega, State.storeBytes_diagnostics ..⟩
  case opFX55 x =>
    obtain rfl := Host.Outcome.next.inj h
    obtain ⟨⟩ := s.storeBytes_only (s.indexAddr 0) (s.registerBlock x)
    constructor <;> intros <;> simp_all [State.advanceI]
    · exact State.storeBytes_read_other _ _ _ fun _ _ _ => by assumption
    · exact State.storeBytes_wf _ _ _ (by assumption)
    · exact ⟨x.val + 1, by omega, by rw [State.storeBytes_diagnostics, State.registerBlock_length]; rfl⟩
  case opDXYN x y n =>
    obtain rfl := Host.Outcome.next.inj h
    constructor <;> intros <;> simp_all
    exact State.drawSprite_wf _ _ _ _ (by assumption)
  all_goals
    obtain rfl := Host.Outcome.next.inj h
    constructor <;> intros <;> simp_all [State.setFlagThen, State.advanceI, Framebuffer.wf_blank]

/-- An instruction that R25 does not list as moving `pc` ends with the default advance (R93). -/
theorem exec_advances {i : Instr} {s t : State} (hm : Instr.movesPc i = false) (h : exec i s = .next t) :
    t.pc = s.pc + 2#16 := by
  cases i <;> simp [Instr.movesPc] at hm
  all_goals
    obtain rfl := Host.Outcome.next.inj h
    simp [State.setFlagThen, State.advanceI, (State.storeBytes_only _ _ _).pc]

end Sys2Proof.Machine
end

