-- ==== Sys2Proof/Laws/PerInstr.lean ====
section
/-! SUPPORT. Facts about every instruction as syntax, one lemma per constructor. Family `RowCoversWord`: the encoder's
word of an instruction is a word of that instruction's row of the opcode table (spec 30_encoding.md R72), for every
value of its operands. -/

namespace Sys2Proof.Laws

/-! The formats under a row's mask: the mask keeps the literal digits and clears the operands (R72). -/

theorem formatNNN_masked (f : Nibble) (nnn : Addr) : formatNNN f nnn &&& 0xF000#16 = formatNNN f 0#12 := by
  have e : (0xF000#16 : Word) = ((0xF#4 ++ 0x000#12 : BitVec 16)) := by decide
  have hf : f &&& 0xF#4 = f := BitVec.and_allOnes (x := f)
  rw [e, formatNNN, formatNNN]
  exact (BitVec.and_append (x₁ := f) (y₁ := nnn) (x₂ := 0xF#4) (y₂ := 0#12)).trans (by rw [hf, BitVec.and_zero])

theorem formatXNN_masked (f : Nibble) (x : Reg) (nn : Byte) :
    formatXNN f x nn &&& 0xF000#16 = formatNNN f 0#12 :=
  formatNNN_masked f (regField x ++ nn)

theorem formatXYN_masked (f : Nibble) (x y : Reg) (n : Nibble) :
    formatXYN f x y n &&& 0xF000#16 = formatNNN f 0#12 :=
  formatNNN_masked f (regField x ++ (regField y ++ n : BitVec 8))

theorem formatXNN_masked_low (f : Nibble) (x : Reg) (nn : Byte) :
    formatXNN f x nn &&& 0xF0FF#16 = formatXNN f 0 nn := by
  have e : (0xF0FF#16 : Word) = ((0xF#4 ++ (0x0#4 ++ 0xFF#8 : BitVec 12) : BitVec 16)) := by decide
  have hf : f &&& 0xF#4 = f := BitVec.and_allOnes (x := f)
  have hn : nn &&& 0xFF#8 = nn := BitVec.and_allOnes (x := nn)
  have h0 : regField 0 = 0#4 := by decide
  have low : (regField x ++ nn : BitVec 12) &&& (0x0#4 ++ 0xFF#8 : BitVec 12) = (0#4 ++ nn : BitVec 12) :=
    BitVec.and_append.trans (by rw [hn, BitVec.and_zero])
  rw [e, formatXNN, formatXNN, h0]
  exact BitVec.and_append.trans (by rw [hf, low])

theorem formatXYN_masked_low (f : Nibble) (x y : Reg) (n : Nibble) :
    formatXYN f x y n &&& 0xF00F#16 = formatXYN f 0 0 n := by
  have e : (0xF00F#16 : Word) = ((0xF#4 ++ (0x0#4 ++ (0x0#4 ++ 0xF#4 : BitVec 8) : BitVec 12) : BitVec 16)) := by
    decide
  have hf : f &&& 0xF#4 = f := BitVec.and_allOnes (x := f)
  have hn : n &&& 0xF#4 = n := BitVec.and_allOnes (x := n)
  have h0 : regField 0 = 0#4 := by decide
  have low8 : (regField y ++ n : BitVec 8) &&& (0x0#4 ++ 0xF#4 : BitVec 8) = (0#4 ++ n : BitVec 8) :=
    BitVec.and_append.trans (by rw [hn, BitVec.and_zero])
  have low : (regField x ++ (regField y ++ n : BitVec 8) : BitVec 12) &&&
      (0x0#4 ++ (0x0#4 ++ 0xF#4 : BitVec 8) : BitVec 12) = (0#4 ++ (0#4 ++ n : BitVec 8) : BitVec 12) :=
    BitVec.and_append.trans (by rw [low8, BitVec.and_zero])
  rw [e, formatXYN, formatXYN, h0]
  exact BitVec.and_append.trans (by rw [hf, low])

/-- Some row of the table has the instruction's pattern and covers its word. -/
def RowCoversWord.Statement (i : Instr) : Prop :=
  ∃ r ∈ opcodeTable, r.pattern = i.pattern ∧ r.covers (encode i) = true

/-- A row of the table that has the instruction's pattern, with the word's masked value. -/
theorem RowCoversWord.of_row {i : Instr} (r : OpcodeRow) (hr : r ∈ opcodeTable) (hp : r.pattern = i.pattern)
    (hm : encode i &&& r.mask = r.value) : RowCoversWord.Statement i :=
  ⟨r, hr, hp, beq_iff_eq.mpr hm⟩

theorem RowCoversWord.op00E0 : RowCoversWord.Statement (.op00E0) :=
  RowCoversWord.of_row ⟨"00E0", 0xFFFF, 0x00E0⟩ (by decide) rfl (by decide)

theorem RowCoversWord.op00EE : RowCoversWord.Statement (.op00EE) :=
  RowCoversWord.of_row ⟨"00EE", 0xFFFF, 0x00EE⟩ (by decide) rfl (by decide)

theorem RowCoversWord.op1NNN (nnn : Addr) : RowCoversWord.Statement (.op1NNN nnn) :=
  RowCoversWord.of_row ⟨"1NNN", 0xF000, 0x1000⟩ (by decide) rfl ((formatNNN_masked _ _).trans (by decide))

theorem RowCoversWord.op2NNN (nnn : Addr) : RowCoversWord.Statement (.op2NNN nnn) :=
  RowCoversWord.of_row ⟨"2NNN", 0xF000, 0x2000⟩ (by decide) rfl ((formatNNN_masked _ _).trans (by decide))

theorem RowCoversWord.op3XNN (x : Reg) (nn : Byte) : RowCoversWord.Statement (.op3XNN x nn) :=
  RowCoversWord.of_row ⟨"3XNN", 0xF000, 0x3000⟩ (by decide) rfl ((formatXNN_masked _ _ _).trans (by decide))

theorem RowCoversWord.op4XNN (x : Reg) (nn : Byte) : RowCoversWord.Statement (.op4XNN x nn) :=
  RowCoversWord.of_row ⟨"4XNN", 0xF000, 0x4000⟩ (by decide) rfl ((formatXNN_masked _ _ _).trans (by decide))

theorem RowCoversWord.op5XY0 (x y : Reg) : RowCoversWord.Statement (.op5XY0 x y) :=
  RowCoversWord.of_row ⟨"5XY0", 0xF00F, 0x5000⟩ (by decide) rfl ((formatXYN_masked_low _ _ _ _).trans (by decide))

theorem RowCoversWord.op6XNN (x : Reg) (nn : Byte) : RowCoversWord.Statement (.op6XNN x nn) :=
  RowCoversWord.of_row ⟨"6XNN", 0xF000, 0x6000⟩ (by decide) rfl ((formatXNN_masked _ _ _).trans (by decide))

theorem RowCoversWord.op7XNN (x : Reg) (nn : Byte) : RowCoversWord.Statement (.op7XNN x nn) :=
  RowCoversWord.of_row ⟨"7XNN", 0xF000, 0x7000⟩ (by decide) rfl ((formatXNN_masked _ _ _).trans (by decide))

theorem RowCoversWord.op8XY0 (x y : Reg) : RowCoversWord.Statement (.op8XY0 x y) :=
  RowCoversWord.of_row ⟨"8XY0", 0xF00F, 0x8000⟩ (by decide) rfl ((formatXYN_masked_low _ _ _ _).trans (by decide))

theorem RowCoversWord.op8XY1 (x y : Reg) : RowCoversWord.Statement (.op8XY1 x y) :=
  RowCoversWord.of_row ⟨"8XY1", 0xF00F, 0x8001⟩ (by decide) rfl ((formatXYN_masked_low _ _ _ _).trans (by decide))

theorem RowCoversWord.op8XY2 (x y : Reg) : RowCoversWord.Statement (.op8XY2 x y) :=
  RowCoversWord.of_row ⟨"8XY2", 0xF00F, 0x8002⟩ (by decide) rfl ((formatXYN_masked_low _ _ _ _).trans (by decide))

theorem RowCoversWord.op8XY3 (x y : Reg) : RowCoversWord.Statement (.op8XY3 x y) :=
  RowCoversWord.of_row ⟨"8XY3", 0xF00F, 0x8003⟩ (by decide) rfl ((formatXYN_masked_low _ _ _ _).trans (by decide))

theorem RowCoversWord.op8XY4 (x y : Reg) : RowCoversWord.Statement (.op8XY4 x y) :=
  RowCoversWord.of_row ⟨"8XY4", 0xF00F, 0x8004⟩ (by decide) rfl ((formatXYN_masked_low _ _ _ _).trans (by decide))

theorem RowCoversWord.op8XY5 (x y : Reg) : RowCoversWord.Statement (.op8XY5 x y) :=
  RowCoversWord.of_row ⟨"8XY5", 0xF00F, 0x8005⟩ (by decide) rfl ((formatXYN_masked_low _ _ _ _).trans (by decide))

theorem RowCoversWord.op8XY6 (x y : Reg) : RowCoversWord.Statement (.op8XY6 x y) :=
  RowCoversWord.of_row ⟨"8XY6", 0xF00F, 0x8006⟩ (by decide) rfl ((formatXYN_masked_low _ _ _ _).trans (by decide))

theorem RowCoversWord.op8XY7 (x y : Reg) : RowCoversWord.Statement (.op8XY7 x y) :=
  RowCoversWord.of_row ⟨"8XY7", 0xF00F, 0x8007⟩ (by decide) rfl ((formatXYN_masked_low _ _ _ _).trans (by decide))

theorem RowCoversWord.op8XYE (x y : Reg) : RowCoversWord.Statement (.op8XYE x y) :=
  RowCoversWord.of_row ⟨"8XYE", 0xF00F, 0x800E⟩ (by decide) rfl ((formatXYN_masked_low _ _ _ _).trans (by decide))

theorem RowCoversWord.op9XY0 (x y : Reg) : RowCoversWord.Statement (.op9XY0 x y) :=
  RowCoversWord.of_row ⟨"9XY0", 0xF00F, 0x9000⟩ (by decide) rfl ((formatXYN_masked_low _ _ _ _).trans (by decide))

theorem RowCoversWord.opANNN (nnn : Addr) : RowCoversWord.Statement (.opANNN nnn) :=
  RowCoversWord.of_row ⟨"ANNN", 0xF000, 0xA000⟩ (by decide) rfl ((formatNNN_masked _ _).trans (by decide))

theorem RowCoversWord.opBNNN (nnn : Addr) : RowCoversWord.Statement (.opBNNN nnn) :=
  RowCoversWord.of_row ⟨"BNNN", 0xF000, 0xB000⟩ (by decide) rfl ((formatNNN_masked _ _).trans (by decide))

theorem RowCoversWord.opCXNN (x : Reg) (nn : Byte) : RowCoversWord.Statement (.opCXNN x nn) :=
  RowCoversWord.of_row ⟨"CXNN", 0xF000, 0xC000⟩ (by decide) rfl ((formatXNN_masked _ _ _).trans (by decide))

theorem RowCoversWord.opDXYN (x y : Reg) (n : Nibble) : RowCoversWord.Statement (.opDXYN x y n) :=
  RowCoversWord.of_row ⟨"DXYN", 0xF000, 0xD000⟩ (by decide) rfl ((formatXYN_masked _ _ _ _).trans (by decide))

theorem RowCoversWord.opEX9E (x : Reg) : RowCoversWord.Statement (.opEX9E x) :=
  RowCoversWord.of_row ⟨"EX9E", 0xF0FF, 0xE09E⟩ (by decide) rfl ((formatXNN_masked_low _ _ _).trans (by decide))

theorem RowCoversWord.opEXA1 (x : Reg) : RowCoversWord.Statement (.opEXA1 x) :=
  RowCoversWord.of_row ⟨"EXA1", 0xF0FF, 0xE0A1⟩ (by decide) rfl ((formatXNN_masked_low _ _ _).trans (by decide))

theorem RowCoversWord.opFX07 (x : Reg) : RowCoversWord.Statement (.opFX07 x) :=
  RowCoversWord.of_row ⟨"FX07", 0xF0FF, 0xF007⟩ (by decide) rfl ((formatXNN_masked_low _ _ _).trans (by decide))

theorem RowCoversWord.opFX0A (x : Reg) : RowCoversWord.Statement (.opFX0A x) :=
  RowCoversWord.of_row ⟨"FX0A", 0xF0FF, 0xF00A⟩ (by decide) rfl ((formatXNN_masked_low _ _ _).trans (by decide))

theorem RowCoversWord.opFX15 (x : Reg) : RowCoversWord.Statement (.opFX15 x) :=
  RowCoversWord.of_row ⟨"FX15", 0xF0FF, 0xF015⟩ (by decide) rfl ((formatXNN_masked_low _ _ _).trans (by decide))

theorem RowCoversWord.opFX18 (x : Reg) : RowCoversWord.Statement (.opFX18 x) :=
  RowCoversWord.of_row ⟨"FX18", 0xF0FF, 0xF018⟩ (by decide) rfl ((formatXNN_masked_low _ _ _).trans (by decide))

theorem RowCoversWord.opFX1E (x : Reg) : RowCoversWord.Statement (.opFX1E x) :=
  RowCoversWord.of_row ⟨"FX1E", 0xF0FF, 0xF01E⟩ (by decide) rfl ((formatXNN_masked_low _ _ _).trans (by decide))

theorem RowCoversWord.opFX29 (x : Reg) : RowCoversWord.Statement (.opFX29 x) :=
  RowCoversWord.of_row ⟨"FX29", 0xF0FF, 0xF029⟩ (by decide) rfl ((formatXNN_masked_low _ _ _).trans (by decide))

theorem RowCoversWord.opFX33 (x : Reg) : RowCoversWord.Statement (.opFX33 x) :=
  RowCoversWord.of_row ⟨"FX33", 0xF0FF, 0xF033⟩ (by decide) rfl ((formatXNN_masked_low _ _ _).trans (by decide))

theorem RowCoversWord.opFX55 (x : Reg) : RowCoversWord.Statement (.opFX55 x) :=
  RowCoversWord.of_row ⟨"FX55", 0xF0FF, 0xF055⟩ (by decide) rfl ((formatXNN_masked_low _ _ _).trans (by decide))

theorem RowCoversWord.opFX65 (x : Reg) : RowCoversWord.Statement (.opFX65 x) :=
  RowCoversWord.of_row ⟨"FX65", 0xF0FF, 0xF065⟩ (by decide) rfl ((formatXNN_masked_low _ _ _).trans (by decide))

end Sys2Proof.Laws
end

