-- ==== Sys2Proof/Tests/Slice0.lean ====
section
/-! SUPPORT. Tests of the model's own work. Expected results are those of spec/95_test_vectors.md (the vector is named
in each section) or a hand calculation from the rule named. Every test is one step or one decode. Then, for each
obligation that has hypotheses, a witness: a concrete state and operands that meet them together. -/

namespace Sys2Proof.Tests

open Sys2Proof Sys2Proof.Machine

/-! ## Well-formedness: each check refuses an ill-formed term -/

/-- R80: unknown words of each family. -/
theorem test_isInstruction_refuses_unknown_words :
    ([0x0000, 0x0123, 0x00E1, 0x5121, 0x8008, 0x812F, 0x9121, 0xE000, 0xE1A0, 0xF108, 0xF1FF] : List Word).all
      (fun op => !isInstruction op) = true := by decide

/-- R72: one word of each format. -/
theorem test_isInstruction_accepts_words :
    ([0x00E0, 0x00EE, 0x1ABC, 0x3A42, 0x8124, 0xD015, 0xE19E, 0xFF65] : List Word).all isInstruction = true := by decide

/-- R151: 3584 bytes fit, 3585 do not. -/
theorem test_programFits_boundary :
    programFits (List.replicate 3584 0xAB#8) = true ∧ programFits (List.replicate 3585 0xAB#8) = false := by
  simp only [programFits, List.length_replicate]
  decide

/-- R6: a screen needs a column. -/
theorem test_config_refuses_no_columns : (Config.wf { Config.thisCore with width := 0 }) = false := by decide

/-- R6: a screen needs a row. -/
theorem test_config_refuses_no_rows : (Config.wf { Config.thisCore with height := 0 }) = false := by decide

/-- D13: the font's first byte is the source's. -/
theorem test_config_refuses_other_first_byte :
    (Config.wf { Config.thisCore with font := Vector.replicate 80 0#8 }) = false := by decide

/-- Log 22: cells out of order, a cell twice, a cell that holds the construction value, a cell past the end. -/
theorem test_memory_refuses_bad_lists :
    Memory.wf font [(0x300, 1#8), (0x2FF, 1#8)] = false ∧ Memory.wf font [(0x300, 1#8), (0x300, 2#8)] = false ∧
    Memory.wf font [(0x300, 0#8)] = false ∧ Memory.wf font [(0, 0xF0#8)] = false ∧ Memory.wf font [(4096, 1#8)] = false := by decide

/-- R33: a framebuffer with a row missing, and one with a short row. -/
theorem test_framebuffer_refuses_bad_sizes :
    Framebuffer.wf 2 2 [[false, true]] = false ∧ Framebuffer.wf 2 2 [[false, true], [false]] = false := by decide

/-! ## Decoding: one word of every constructor, written digit by digit from R72 -/

theorem test_decode_00E0 : decodeWord 0x00E0#16 = .instr (.op00E0) := by decide
theorem test_decode_00EE : decodeWord 0x00EE#16 = .instr (.op00EE) := by decide
theorem test_decode_1NNN : decodeWord 0x1ABC#16 = .instr (.op1NNN 0xABC#12) := by decide
theorem test_decode_2NNN : decodeWord 0x2200#16 = .instr (.op2NNN 0x200#12) := by decide
theorem test_decode_3XNN : decodeWord 0x3A42#16 = .instr (.op3XNN 0xA 0x42#8) := by decide
theorem test_decode_4XNN : decodeWord 0x4B17#16 = .instr (.op4XNN 0xB 0x17#8) := by decide
theorem test_decode_5XY0 : decodeWord 0x5120#16 = .instr (.op5XY0 1 2) := by decide
theorem test_decode_6XNN : decodeWord 0x6C05#16 = .instr (.op6XNN 0xC 0x05#8) := by decide
theorem test_decode_7XNN : decodeWord 0x7DFF#16 = .instr (.op7XNN 0xD 0xFF#8) := by decide
theorem test_decode_8XY0 : decodeWord 0x8120#16 = .instr (.op8XY0 1 2) := by decide
theorem test_decode_8XY1 : decodeWord 0x8341#16 = .instr (.op8XY1 3 4) := by decide
theorem test_decode_8XY2 : decodeWord 0x8562#16 = .instr (.op8XY2 5 6) := by decide
theorem test_decode_8XY3 : decodeWord 0x8783#16 = .instr (.op8XY3 7 8) := by decide
theorem test_decode_8XY4 : decodeWord 0x89A4#16 = .instr (.op8XY4 9 0xA) := by decide
theorem test_decode_8XY5 : decodeWord 0x8BC5#16 = .instr (.op8XY5 0xB 0xC) := by decide
theorem test_decode_8XY6 : decodeWord 0x8DE6#16 = .instr (.op8XY6 0xD 0xE) := by decide
theorem test_decode_8XY7 : decodeWord 0x8F07#16 = .instr (.op8XY7 0xF 0) := by decide
theorem test_decode_8XYE : decodeWord 0x812E#16 = .instr (.op8XYE 1 2) := by decide
theorem test_decode_9XY0 : decodeWord 0x9340#16 = .instr (.op9XY0 3 4) := by decide
theorem test_decode_ANNN : decodeWord 0xA123#16 = .instr (.opANNN 0x123#12) := by decide
theorem test_decode_BNNN : decodeWord 0xBFFE#16 = .instr (.opBNNN 0xFFE#12) := by decide
theorem test_decode_CXNN : decodeWord 0xC30F#16 = .instr (.opCXNN 3 0x0F#8) := by decide
theorem test_decode_DXYN : decodeWord 0xD015#16 = .instr (.opDXYN 0 1 5#4) := by decide
theorem test_decode_EX9E : decodeWord 0xE19E#16 = .instr (.opEX9E 1) := by decide
theorem test_decode_EXA1 : decodeWord 0xE2A1#16 = .instr (.opEXA1 2) := by decide
theorem test_decode_FX07 : decodeWord 0xF307#16 = .instr (.opFX07 3) := by decide
theorem test_decode_FX0A : decodeWord 0xF40A#16 = .instr (.opFX0A 4) := by decide
theorem test_decode_FX15 : decodeWord 0xF515#16 = .instr (.opFX15 5) := by decide
theorem test_decode_FX18 : decodeWord 0xF618#16 = .instr (.opFX18 6) := by decide
theorem test_decode_FX1E : decodeWord 0xF71E#16 = .instr (.opFX1E 7) := by decide
theorem test_decode_FX29 : decodeWord 0xF829#16 = .instr (.opFX29 8) := by decide
theorem test_decode_FX33 : decodeWord 0xF933#16 = .instr (.opFX33 9) := by decide
theorem test_decode_FX55 : decodeWord 0xFA55#16 = .instr (.opFX55 0xA) := by decide
theorem test_decode_FX65 : decodeWord 0xFF65#16 = .instr (.opFX65 0xF) := by decide

/-- R80: the words next to an instruction's are not taken for it. -/
theorem test_decode_unknown :
    ([0x0000, 0x00E1, 0x512F, 0x8129, 0x812D, 0x9121, 0xE19F, 0xF116, 0xF175] : List Word).all
      (fun op => decodeWord op == .unknown op) = true := by decide

/-- R53: bytes come high byte first; a lone byte is no instruction. -/
theorem test_decode_bytes :
    (decodeBytes [0x60#8, 0x05#8, 0x61#8] = .ok (.op6XNN 0 5#8, [0x61#8])) ∧
    (decodeBytes [0x60#8] = .error .truncated) ∧
    (decodeBytes [0x51#8, 0x21#8] = .error (.unknownOpcode 0x5121#16)) := by
  refine ⟨rfl, rfl, rfl⟩

/-- The table's numbering: bit 0 of the table is bit 0 of the word. -/
theorem test_decode_table_word :
    decodeTableWord 16 0xD015 = some (.opDXYN 0 1 5#4) ∧ decodeTableWord 16 0x5121 = none := by decide

/-! ## One step on a small state (95_test_vectors.md, part 2) -/

/-- The reset state with registers set. -/
def regs (l : List (Reg × Byte)) : State := l.foldl (fun s p => s.setReg p.1 p.2) State.reset

/-- What one step of the word `w` at `pc` leaves, read by `f`. -/
def after {α : Type} (w : Nat) (s : State) (f : State → α) : Option α :=
  match step (s.withFetchWord 16 w) with
  | .next t => some (f t)
  | _ => none

/-- The fault one step of the word `w` raises, if any. -/
def faultOf (w : Nat) (s : State) : Option Fault :=
  match step (s.withFetchWord 16 w) with
  | .fault f => some f
  | _ => none

/-- The reset state in strict mode. -/
def strictReset : State := State.new { Config.thisCore with illegalMode := .strict } []

/-- A keypad with the listed keys pressed. -/
def keysDown (l : List Reg) : Vector Bool 16 := Vector.ofFn fun k => l.contains k

/-- R23, D13: a core with another font reads that one. -/
theorem test_other_font :
    after 0xF165 (State.new { Config.thisCore with font := Vector.replicate 80 0xF0#8 } []) (fun t => (t.reg 0, t.reg 1)) =
      some (0xF0#8, 0xF0#8) := by decide

/-- Vectors 2.6. -/
theorem test_00E0_clears :
    after 0x00E0 (State.reset.setFb (State.reset.fb.set 63 31 true)) (fun t => (t.fb.get 63 31, t.redraw, t.pc)) =
      some (false, true, 0x202#16) := by decide

/-- Vectors 2.3. -/
theorem test_00EE_returns :
    after 0x00EE (State.reset.setStack (State.reset.stack.set 0 0x456#16) 1) (fun t => (t.pc, t.sp)) =
      some (0x458#16, 0) := by decide

/-- Vectors 2.3. -/
theorem test_00EE_underflow :
    faultOf 0x00EE State.reset =
      some (.stackUnderflow 0x200#16) := by decide

/-- Vectors 2.3. -/
theorem test_1NNN :
    after 0x1ABC State.reset (·.pc) =
      some 0xABC#16 := by decide

/-- Vectors 2.3. -/
theorem test_2NNN_last_entry :
    after 0x2ABC (State.reset.setStack State.reset.stack 15) (fun t => (t.pc, t.sp, t.stack[15])) =
      some (0xABC#16, 16, 0x200#16) := by decide

/-- Vectors 2.3. -/
theorem test_2NNN_overflow :
    faultOf 0x2ABC (State.reset.setStack State.reset.stack 16) =
      some (.stackOverflow 0x200#16) := by decide

/-- Vectors 2.3. -/
theorem test_3XNN :
    (after 0x3A42 (regs [(10, 0x42#8)]) (·.pc), after 0x3A42 (regs [(10, 0x43#8)]) (·.pc)) =
      (some 0x204#16, some 0x202#16) := by decide

/-- Vectors 2.3. -/
theorem test_4XNN :
    (after 0x4A42 (regs [(10, 0x42#8)]) (·.pc), after 0x4A42 (regs [(10, 0x43#8)]) (·.pc)) =
      (some 0x202#16, some 0x204#16) := by decide

/-- Vectors 2.3. -/
theorem test_5XY0 :
    (after 0x5120 (regs [(1, 7#8), (2, 7#8)]) (·.pc), after 0x5120 (regs [(1, 7#8), (2, 8#8)]) (·.pc)) =
      (some 0x204#16, some 0x202#16) := by decide

/-- Vectors 2.3. -/
theorem test_9XY0 :
    (after 0x9120 (regs [(1, 7#8), (2, 7#8)]) (·.pc), after 0x9120 (regs [(1, 7#8), (2, 8#8)]) (·.pc)) =
      (some 0x202#16, some 0x204#16) := by decide

/-- Vectors 2.3. -/
theorem test_BNNN_not_reduced :
    after 0xBFFF (regs [(0, 0xFF#8)]) (·.pc) =
      some 0x10FE#16 := by decide

/-- Vectors 2.3. -/
theorem test_pc_wraps_at_16_bits :
    after 0x6001 (State.reset.setPc 0xFFFE#16) (fun t => (t.pc, t.reg 0)) =
      some (0#16, 1#8) := by decide

/-- Vectors 2.3. -/
theorem test_fetch_across_the_end :
    (match step ((State.reset.poke 0xFFF 0x6A#8).setPc 0xFFF#16) with | .next t => some (t.reg 10, t.pc) | _ => none) =
      some (0xF0#8, 0x1001#16) := by decide

/-- Vectors 2.4. -/
theorem test_6XNN :
    after 0x6A42 (regs [(10, 0x99#8)]) (·.reg 10) =
      some 0x42#8 := by decide

/-- Vectors 2.4. -/
theorem test_7XNN_wraps_without_flag :
    after 0x7AFF (regs [(10, 2#8)]) (fun t => (t.reg 10, t.reg VF)) =
      some (1#8, 0#8) := by decide

/-- Vectors 2.4. -/
theorem test_8XY0 :
    after 0x8120 (regs [(1, 0x11#8), (2, 0x22#8)]) (fun t => (t.reg 1, t.reg 2)) =
      some (0x22#8, 0x22#8) := by decide

/-- Vectors 2.4. -/
theorem test_8XY1_keeps_flag :
    after 0x8121 (regs [(1, 0xF0#8), (2, 0x0F#8), (15, 7#8)]) (fun t => (t.reg 1, t.reg VF)) =
      some (0xFF#8, 7#8) := by decide

/-- Vectors 2.4. -/
theorem test_8XY2 :
    after 0x8122 (regs [(1, 0xF0#8), (2, 0x3C#8)]) (·.reg 1) =
      some 0x30#8 := by decide

/-- Vectors 2.4. -/
theorem test_8XY3 :
    after 0x8123 (regs [(1, 0xF0#8), (2, 0x3C#8)]) (·.reg 1) =
      some 0xCC#8 := by decide

/-- Vectors 2.4. -/
theorem test_8XY4_flag_as_source :
    after 0x81F4 (regs [(1, 0x10#8), (15, 0xF5#8)]) (fun t => (t.reg 1, t.reg VF)) =
      some (5#8, 1#8) := by decide

/-- Vectors 2.4. -/
theorem test_8XY4_flag_as_destination :
    after 0x8F24 (regs [(15, 0xF0#8), (2, 0x20#8)]) (·.reg VF) =
      some 0x10#8 := by decide

/-- Vectors 2.4. -/
theorem test_8XY5_equal_is_no_borrow :
    after 0x8125 (regs [(1, 5#8), (2, 5#8)]) (fun t => (t.reg 1, t.reg VF)) =
      some (0#8, 1#8) := by decide

/-- Vectors 2.4. -/
theorem test_8XY5_borrow :
    after 0x8125 (regs [(1, 5#8), (2, 6#8)]) (fun t => (t.reg 1, t.reg VF)) =
      some (0xFF#8, 0#8) := by decide

/-- Vectors 2.4. -/
theorem test_8XY6_shifts_vy :
    after 0x8126 (regs [(1, 0xAA#8), (2, 5#8)]) (fun t => (t.reg 1, t.reg 2, t.reg VF)) =
      some (2#8, 5#8, 1#8) := by decide

/-- Vectors 2.4. -/
theorem test_8XY7_reverse :
    after 0x8127 (regs [(1, 6#8), (2, 5#8)]) (fun t => (t.reg 1, t.reg VF)) =
      some (0xFF#8, 0#8) := by decide

/-- Vectors 2.4. -/
theorem test_8XYE_writes_both :
    after 0x812E (regs [(1, 0xAA#8), (2, 0x81#8)]) (fun t => (t.reg 1, t.reg 2, t.reg VF)) =
      some (2#8, 2#8, 1#8) := by decide

/-- Vectors 2.4. -/
theorem test_8XYE_flag_as_source :
    after 0x81FE (regs [(15, 0x81#8)]) (fun t => (t.reg 1, t.reg VF)) =
      some (2#8, 2#8) := by decide

/-- Vectors 2.4. -/
theorem test_CXNN_masks_injected_byte :
    after 0xC30F (State.new Config.thisCore [0xB7#8]) (fun t => (t.reg 3, t.random.injected, t.random.drawn)) =
      some (7#8, [], 1) := by decide

/-- Vectors 2.5. -/
theorem test_ANNN :
    after 0xA123 (State.reset.setI 0xFFFF#16) (·.I) =
      some 0x123#16 := by decide

/-- Vectors 2.5. -/
theorem test_FX1E_wraps_without_flag :
    after 0xF11E ((regs [(1, 2#8)]).setI 0xFFFF#16) (fun t => (t.I, t.reg VF)) =
      some (1#16, 0#8) := by decide

/-- Vectors 2.5. -/
theorem test_FX29_multiplies_the_whole_byte :
    after 0xF129 (regs [(1, 0xFF#8)]) (·.I) =
      some 0x4FB#16 := by decide

/-- S8. -/
theorem test_FX33_digits :
    after 0xF133 ((regs [(1, 157#8)]).setI 0x300#16) (fun t => [0x300, 0x301, 0x302].map t.byteAt) =
      some [1#8, 5#8, 7#8] := by decide

/-- Vectors 2.5. -/
theorem test_FX33_suppressed_below_0x200 :
    after 0xF133 ((regs [(1, 234#8)]).setI 0x1FE#16) (fun t => (t.byteAt 0x1FF, t.byteAt 0x200, t.diagnostics)) =
      some (0#8, 4#8, [.reservedWrite 0x200#16 0x1FE#12, .reservedWrite 0x200#16 0x1FF#12]) := by decide

/-- Vectors 2.5. -/
theorem test_FX55_wraps_and_advances :
    after 0xF255 ((regs [(0, 0x11#8), (1, 0x22#8), (2, 0x33#8)]).setI 0xFFE#16) (fun t => (t.byteAt 0xFFE, t.byteAt 0xFFF, t.byteAt 0, t.I)) =
      some (0x11#8, 0x22#8, 0xF0#8, 0x1001#16) := by decide

/-- Vectors 2.5. -/
theorem test_FX65_block :
    after 0xF265 (((regs [(3, 0x99#8)]).pokeBytes 0x400 [0xA#8, 0xB#8, 0xC#8, 0xD#8]).setI 0x400#16) (fun t => (t.reg 0, t.reg 2, t.reg 3, t.I)) =
      some (0xA#8, 0xC#8, 0x99#8, 0x403#16) := by decide

/-- Vectors 2.5. -/
theorem test_FX65_reads_the_font :
    after 0xFF65 State.reset (fun t => (t.reg 0, t.reg VF, t.I)) =
      some (0xF0#8, 0xF0#8, 0x10#16) := by decide

/-- S7. -/
theorem test_DXYN_bit7_is_leftmost :
    after 0xD011 State.reset (fun t => ((List.range 8).map (t.fb.get · 0), t.reg VF, t.redraw)) =
      some ([true, true, true, true, false, false, false, false], 0#8, true) := by decide

/-- R137, by hand. -/
theorem test_DXYN_collides_and_wraps :
    after 0xD011 (((regs [(0, 62#8), (1, 31#8)]).poke 0x300 0xF0#8).setI 0x300#16 |>.setFb (State.reset.fb.set 1 31 true)) (fun t => (t.fb.get 62 31, t.fb.get 0 31, t.fb.get 1 31, t.reg VF)) =
      some (true, true, false, 1#8) := by decide

/-- Vectors 2.7. -/
theorem test_EX9E_low_four_bits :
    after 0xE19E ((regs [(1, 0x15#8)]).setKeys (keysDown [5])) (·.pc) =
      some 0x204#16 := by decide

/-- Vectors 2.7. -/
theorem test_EXA1 :
    (after 0xE1A1 ((regs [(1, 5#8)]).setKeys (keysDown [5])) (·.pc), after 0xE1A1 ((regs [(1, 5#8)]).setKeys (keysDown [4])) (·.pc)) =
      (some 0x202#16, some 0x204#16) := by decide

/-- Vectors 2.8. -/
theorem test_FX07_before_the_tick :
    after 0xF207 (State.reset.setDelay 0x40#8) (fun t => (t.reg 2, t.delay)) =
      some (0x40#8, 0x3F#8) := by decide

/-- Vectors 2.7. -/
theorem test_FX0A_waits_and_ticks :
    after 0xF30A ((State.reset.setDelay 1#8).setSound 1#8) (fun t => (t.pc, t.delay, t.sound, t.beep)) =
      some (0x200#16, 0#8, 0#8, true) := by decide

/-- Vectors 2.7. -/
theorem test_FX0A_lowest_key :
    after 0xF30A (State.reset.setKeys (keysDown [12, 7])) (fun t => (t.pc, t.reg 3)) =
      some (0x202#16, 7#8) := by decide

/-- Vectors 2.8. -/
theorem test_FX15_ticks_at_once :
    after 0xF215 (regs [(2, 2#8)]) (·.delay) =
      some 1#8 := by decide

/-- Vectors 2.8. -/
theorem test_FX18_one_beeps :
    after 0xF218 (regs [(2, 1#8)]) (fun t => (t.sound, t.beep)) =
      some (0#8, true) := by decide

/-- Vectors 2.8. -/
theorem test_FX18_zero_does_not_beep :
    after 0xF218 (State.reset.setSound 7#8) (fun t => (t.sound, t.beep)) =
      some (0#8, false) := by decide

/-- Vectors 2.2. -/
theorem test_unknown_permissive :
    after 0x5121 (State.reset.setDelay 5#8) (fun t => (t.pc, t.delay, t.diagnostics)) =
      some (0x202#16, 4#8, [.unknownOpcode 0x200#16 0x5121#16]) := by decide

/-- Vectors 2.2. -/
theorem test_unknown_strict :
    faultOf 0x0123 strictReset =
      some (.illegalOpcode 0x200#16 0x0123#16) := by decide

/-! ## Host operations (95_test_vectors.md 2.9) -/

/-- R151: a two-byte program changes only its own cells. -/
theorem test_loadProgram_writes_verbatim :
    ((loadProgram [0x12#8, 0x34#8] ((State.reset.poke 0x202 0x99#8).setPc 0x300#16)).toOption.map fun t =>
      ([0x1FF, 0x200, 0x201, 0x202].map t.byteAt, t.pc)) =
      some ([0#8, 0x12#8, 0x34#8, 0x99#8], 0x300#16) := by decide

/-- R151: 3585 bytes are rejected. -/
theorem test_loadProgram_rejects_too_long :
    loadProgram (List.replicate 3585 0xAB#8) State.reset = .error .programTooLarge := by
  simp only [loadProgram, programFits, List.length_replicate]
  decide

/-- R154: pixel (3, 2) is element 131. -/
theorem test_framebuffer_row_major :
    (framebuffer (State.reset.setFb (State.reset.fb.set 3 2 true)))[131]? = some true := by decide

/-- R155: query (64, 32) is pixel (0, 0). -/
theorem test_pixelAt_wraps : pixelAt 64 32 (State.reset.setFb (State.reset.fb.set 0 0 true)) = true := by decide

/-- R156: a second take returns false. -/
theorem test_takeRedrawFlag_twice :
    (runSession [.takeRedrawFlag, .takeRedrawFlag] (State.reset.setRedraw true)).2 = [.bit true, .bit false] := by decide

/-- P8: an underflow leaves the core as it was, and again. -/
theorem test_fault_repeats :
    (runSession [.loadProgram [0x00#8, 0xEE#8], .step, .step] State.reset).2 =
      [.done, .faulted (.stackUnderflow 0x200#16), .faulted (.stackUnderflow 0x200#16)] := by decide

/-- R82, R83: listings, those of 95_test_vectors.md among them. -/
theorem test_listings :
    [listWord 0xD015#16, listWord 0x6A3E#16, listWord 0x120C#16, listWord 0xFA65#16, listWord 0x5121#16] =
      ["DRW V0, V1, 5", "LD VA, 0x3E", "JP 0x20C", "LD VA, [I]", "DW 5121"] := by decide

/-- R166: the codes. -/
theorem test_codes :
    [Fault.code (.stackOverflow 0#16), Fault.code (.stackUnderflow 0#16), Fault.code (.illegalOpcode 0#16 0#16),
      Diagnostic.code (.unknownOpcode 0#16 0#16), Diagnostic.code (.reservedWrite 0#16 0#12),
      LoadFailure.code .programTooLarge] = [1, 2, 3, 1, 2, 1] := by decide

/-! ## Witnesses: a state and operands that meet each obligation's hypotheses together -/

/-- The reset state with a word where the next step fetches. -/
abbrev loaded (w : Nat) : State := State.reset.withFetchWord 16 w

/-- The reset state with the words of `w` fetched next and the keys of `l` pressed. -/
abbrev loadedKeys (w : Nat) (l : List Reg) : State := (loaded w).setKeys (keysDown l)

theorem witness_EncodeOfDecodeIsTheWord :
    decodeWord 0x1ABC#16 = .instr (.op1NNN 0xABC#12) ∧ decodeWord 0xFFFF#16 = .unknown 0xFFFF#16 := by decide

theorem witness_DecoderAgreesWithOpcodeTable :
    (⟨"8XYE", 0xF00F, 0x800E⟩ : OpcodeRow) ∈ opcodeTable ∧
    (⟨"8XYE", 0xF00F, 0x800E⟩ : OpcodeRow).covers 0x812E#16 = true ∧
    (⟨"8XYE", 0xF00F, 0x800E⟩ : OpcodeRow).covers 0x812F#16 = false := by decide

/-- A decoded instruction that completes and one that faults. -/
theorem witness_StepRunsTheDecodedInstruction :
    (decodeBytes [(loaded 0x6005).memRead 0x200, (loaded 0x6005).memRead 0x201] = .ok (.op6XNN 0 5#8, []) ∧
      ∃ u, exec (.op6XNN 0 5#8) { loaded 0x6005 with diagnostics := [] } = .next u) ∧
    (decodeBytes [(loaded 0x00EE).memRead 0x200, (loaded 0x00EE).memRead 0x201] = .ok (.op00EE, []) ∧
      ∃ f, exec .op00EE { loaded 0x00EE with diagnostics := [] } = .fault f) :=
  ⟨⟨rfl, _, rfl⟩, rfl, _, rfl⟩

theorem witness_UnknownOpcodeIsNoOpOrFault :
    (decodeWord State.reset.fetchWord = .unknown State.reset.fetchWord ∧
      State.reset.cfg.illegalMode = .permissive) ∧
    (decodeWord strictReset.fetchWord = .unknown strictReset.fetchWord ∧
      strictReset.cfg.illegalMode = .strict) := by decide

/-- The stack's two ends: empty, one entry, full. -/
theorem witness_ReturnPopsAndAddsTwo :
    State.reset.sp.val = 0 ∧ (State.reset.setStack State.reset.stack 1).sp.val = 0 + 1 ∧
    (State.reset.setStack State.reset.stack 16).sp.val = 15 + 1 := by decide

theorem witness_CallPushesItsOwnAddress :
    (State.reset.setStack State.reset.stack 16).sp.val = 16 ∧ State.reset.sp.val < 16 ∧
    (State.reset.setStack State.reset.stack 15).sp.val < 16 := by decide

/-- Each skip's condition and its negation. -/
theorem witness_SkipsFollowTheirConditions :
    State.reset.reg 1 = 0#8 ∧ State.reset.reg 1 ≠ 0xFF#8 ∧
    State.reset.reg 1 = State.reset.reg 2 ∧ (regs [(1, 1#8)]).reg 1 ≠ (regs [(1, 1#8)]).reg 2 := by decide

theorem witness_CallThenReturnComesBack :
    State.reset.sp.val < 16 ∧ (State.reset.setStack State.reset.stack 15).sp.val < 16 := by decide

/-- From the empty stack sixteen calls, from the full one none. -/
theorem witness_SeventeenthNestedCallOverflows :
    State.reset.sp.val + (List.replicate 16 0x200#12).length = 16 ∧
    (State.reset.setStack State.reset.stack 16).sp.val + ([] : List Addr).length = 16 := by decide

theorem witness_JumpToItselfRunsForEver :
    (loaded 0x1200).pc.toNat = (0x200#12 : Addr).toNat ∧ Fetches (loaded 0x1200) (.op1NNN 0x200#12) := ⟨rfl, rfl⟩

/-- A state with an injected byte, and one without. -/
theorem witness_RandomMasksOneDrawnByte :
    (State.new Config.thisCore [0xB7#8]).random.injected = 0xB7#8 :: [] ∧ State.reset.random.injected = [] := by decide

theorem witness_OnlyNamedRegistersAreWritten :
    (∃ t, exec (.op8XY4 1 2) State.reset = .next t) ∧ Instr.mayWrite (.op8XY4 1 2) 2 = false := ⟨⟨_, rfl⟩, rfl⟩

theorem witness_DecimalDigitsAreStored : State.reset.memWf = true := by decide

theorem witness_RegisterBlockIsStored : (loaded 0xFF55).memWf = true := by decide

/-- A block of one register, and the longest block of one below the top: both kinds of register exist. -/
theorem witness_RegisterBlockIsLoaded :
    ((0 : Reg) ≤ 0 ∧ (0 : Reg) < 15) ∧ ((14 : Reg) ≤ 14 ∧ (14 : Reg) < 15) := by decide

/-- Both ends of the program region: a block at 0x200, and one that ends at 0xFFF; the state after the store holds it. -/
theorem witness_StoreThenLoadRestoresRegisters :
    (let s := State.reset.setI 0x200#16
     s.memWf = true ∧ 0x200 ≤ s.I.toNat % 4096 ∧ s.I.toNat % 4096 + (15 : Reg).val ≤ 0xFFF) ∧
    (let s := State.reset.setI 0xFF0#16
     s.memWf = true ∧ 0x200 ≤ s.I.toNat % 4096 ∧ s.I.toNat % 4096 + (15 : Reg).val ≤ 0xFFF) ∧
    ∃ t, exec (.opFX55 15) (State.reset.setI 0x200#16) = .next t ∧ ∃ u : State, u.I = 0x200#16 ∧
      ∀ k, k ≤ (15 : Reg).val → u.byteAt ((0x200 + k) % 4096) = t.byteAt ((0x200 + k) % 4096) :=
  ⟨by decide, by decide, _, rfl, State.setI _ 0x200#16, rfl, fun _ _ => rfl⟩

theorem witness_DrawInvertsHitPixels :
    State.reset.fb.wf State.reset.cfg.width State.reset.cfg.height = true ∧ State.reset.cfg.wf = true ∧
    0 < State.reset.cfg.width ∧ 31 < State.reset.cfg.height := by decide

/-- This hardware's screen, and one on which pixels are visited twice. -/
theorem witness_DrawReportsCollision :
    (State.reset.fb.wf State.reset.cfg.width State.reset.cfg.height = true ∧ State.reset.cfg.wf = true ∧
      8 ≤ State.reset.cfg.width ∧ 15 ≤ State.reset.cfg.height) ∧
    (let s := State.new { Config.thisCore with width := 2, height := 2 } []
     s.fb.wf s.cfg.width s.cfg.height = true ∧ s.cfg.wf = true ∧ 2 ≤ s.spriteHitCount 0 1 1#4 0 0) := by decide

/-- The glyph of 0 drawn at (0, 0) of the reset state turns pixel (0, 0) on, and the coordinates' registers keep them. -/
theorem witness_DrawingTwiceRestoresTheScreen :
    State.reset.fb.wf State.reset.cfg.width State.reset.cfg.height = true ∧ State.reset.cfg.wf = true ∧
    ∃ t, exec (.opDXYN 0 1 5#4) State.reset = .next t ∧ t.reg 0 = State.reset.reg 0 ∧
      t.reg 1 = State.reset.reg 1 ∧ State.reset.fb.get 0 0 = false ∧ t.fb.get 0 0 = true :=
  ⟨rfl, rfl, _, rfl, rfl, rfl, rfl, rfl⟩

theorem witness_OnlyDrawingSetsRedraw : ∃ t, step (loaded 0x00E0) = .next t := ⟨_, rfl⟩

/-- A register below 16, and the largest one. -/
theorem witness_KeySkipsFollowTheKey :
    (State.reset.reg 1).toNat % 16 = (0 : Reg).val ∧ ((regs [(1, 0xFF#8)]).reg 1).toNat % 16 = (15 : Reg).val ∧
    State.reset.keypad[(0 : Reg)] = false ∧ (State.reset.setKeys (keysDown [0])).keypad[(0 : Reg)] = true := by decide

/-- A waiting core, and one with keys 7 and 12 pressed. -/
theorem witness_KeyWaitTakesAPressedKey :
    (Fetches (loaded 0xF30A) (.opFX0A 3) ∧ ∀ k : Reg, (loaded 0xF30A).keypad[k] = false) ∧
    ((loadedKeys 0xF30A [12, 7]).keypad[(12 : Reg)] = true ∧
      (loadedKeys 0xF30A [12, 7]).cfg.keyPolicy = .lowest) :=
  ⟨⟨rfl, by decide⟩, by decide⟩

theorem witness_DelayIsReadAndSetBeforeItTicks :
    Fetches (loaded 0xF207) (.opFX07 2) ∧ Fetches (loaded 0xF215) (.opFX15 2) := ⟨rfl, rfl⟩

theorem witness_SoundIsSetThenTicks : Fetches (loaded 0xF218) (.opFX18 2) := rfl

theorem witness_TimersFallOncePerCompletedStep :
    (∃ t, step (loaded 0x6000) = .next t) ∧ (∀ x, ¬Fetches (loaded 0x6000) (.opFX15 x)) ∧
    ∀ x, ¬Fetches (loaded 0x6000) (.opFX18 x) := by
  have e : decodeWord (loaded 0x6000).fetchWord = .instr (.op6XNN 0 0#8) := rfl
  exact ⟨⟨_, rfl⟩, fun x h => by simp [Fetches, e] at h, fun x h => by simp [Fetches, e] at h⟩

/-- A program of the greatest length, one byte more, and a two-byte program at the entry point. -/
theorem witness_LoadWritesTheProgramRegion :
    State.reset.memWf = true ∧ (List.replicate 3584 0#8).length ≤ 3584 ∧ 3584 < (List.replicate 3585 0#8).length ∧
    [0x12#8, 0x34#8] = 0x12#8 :: 0x34#8 :: [] ∧ State.reset.pc = 0x200#16 :=
  ⟨rfl, by rw [List.length_replicate], by rw [List.length_replicate]; decide, rfl, rfl⟩

theorem witness_FramebufferIsRowMajor :
    State.reset.fb.wf State.reset.cfg.width State.reset.cfg.height = true ∧ 63 < State.reset.cfg.width ∧
    31 < State.reset.cfg.height := by decide

theorem witness_PixelQueryWraps :
    State.reset.fb.wf State.reset.cfg.width State.reset.cfg.height = true ∧ State.reset.cfg.wf = true := by decide

/-- Each of the four changes of a flag happens. -/
theorem witness_FlagsRiseInStepsAndFallInHostCalls :
    ((loaded 0x00E0).redraw = false ∧ (hostCall .step (loaded 0x00E0)).1.redraw = true) ∧
    (((loaded 0x6000).setSound 1#8).beep = false ∧ (hostCall .step ((loaded 0x6000).setSound 1#8)).1.beep = true) ∧
    ((State.reset.setRedraw true).redraw = true ∧
      (hostCall .takeRedrawFlag (State.reset.setRedraw true)).1.redraw = false) ∧
    ((State.reset.setBeep true).beep = true ∧
      (hostCall .pendingBeep (State.reset.setBeep true)).1.beep = false) := by decide

theorem witness_HostOperationsTouchOnlyTheirOwnParts :
    HostOp.framebuffer ≠ .step ∧ (∀ bytes, HostOp.framebuffer ≠ .loadProgram bytes) ∧
    (∀ snapshot, HostOp.framebuffer ≠ .setKeypad snapshot) ∧ HostOp.framebuffer ≠ .clearRedraw ∧
    HostOp.framebuffer ≠ .takeRedrawFlag ∧ HostOp.framebuffer ≠ .pendingBeep :=
  ⟨by decide, (fun _ h => by cases h), (fun _ h => by cases h), by decide, by decide, by decide⟩

/-- Each of the three faults is raised. -/
theorem witness_StepFaultsExactlyThen :
    step ((loaded 0x2ABC).setStack State.reset.stack 16) = .fault (.stackOverflow 0x200#16) ∧
    step (loaded 0x00EE) = .fault (.stackUnderflow 0x200#16) ∧
    step strictReset = .fault (.illegalOpcode 0x200#16 0#16) := ⟨rfl, rfl, rfl⟩

theorem witness_FaultChangesNothingAndRepeats :
    step (loaded 0x00EE) = .fault (.stackUnderflow 0x200#16) := rfl

/-- A step with no event, one with an unknown opcode, one with a suppressed store. -/
theorem witness_StepReportsOnlyTheseEvents :
    (∃ t, step (loaded 0x6000) = .next t) ∧ (∃ t, step State.reset = .next t) ∧
    (∃ t, step (loaded 0xF133) = .next t) := ⟨⟨_, rfl⟩, ⟨_, rfl⟩, ⟨_, rfl⟩⟩

/-- One step for each kind of successor. -/
theorem witness_PcHasOnlyTheseSuccessors :
    (∃ t, step (loaded 0x6000) = .next t) ∧ (∃ t, step (loaded 0x3000) = .next t) ∧
    (∃ t, step (loaded 0x1ABC) = .next t) ∧ (∃ t, step (loaded 0xB300) = .next t) ∧
    (∃ t, step ((loaded 0x00EE).setStack State.reset.stack 1) = .next t) ∧
    (∃ t, step (loaded 0xF30A) = .next t) :=
  ⟨⟨_, rfl⟩, ⟨_, rfl⟩, ⟨_, rfl⟩, ⟨_, rfl⟩, ⟨_, rfl⟩, ⟨_, rfl⟩⟩

/-- A step of `6XNN`, which meets every clause's hypotheses for registers other than its own, and one of `FX18`. -/
theorem witness_StepsTouchEachPartByItsOwnInstructions :
    (∃ t, step (loaded 0x6000) = .next t) ∧ (∀ i, Fetches (loaded 0x6000) i → i = .op6XNN 0 0#8) ∧
    Instr.mayWrite (.op6XNN 0 0#8) 1 = false ∧ Instr.movesPc (.op6XNN 0 0#8) = false ∧
    Fetches (loaded 0x6000) (.op6XNN 0 0#8) ∧
    (∃ t, step (loaded 0xF218) = .next t) ∧ Fetches (loaded 0xF218) (.opFX18 2) := by
  have e : decodeWord (loaded 0x6000).fetchWord = .instr (.op6XNN 0 0#8) := rfl
  exact ⟨⟨_, rfl⟩, fun i h => by simpa [Fetches, e, eq_comm] using h, rfl, rfl, e, ⟨_, rfl⟩, rfl⟩

/-- A step that stores, and one that does not. -/
theorem witness_StepsNeverWriteTheReservedRegion :
    (∃ t, step (loaded 0xF133) = .next t) ∧ (∃ t, step (loaded 0x6000) = .next t) ∧
    ∀ i, Fetches (loaded 0x6000) i → i = .op6XNN 0 0#8 :=
  ⟨⟨_, rfl⟩, ⟨_, rfl⟩, witness_StepsTouchEachPartByItsOwnInstructions.2.1⟩

theorem witness_ConstructionMeetsTheInvariants :
    Config.thisCore.wf = true ∧
    Config.wf { Config.thisCore with width := 1, height := 1, font := Vector.replicate 80 0xF0#8 } = true := by decide

/-- A canonical memory holds what construction put into the reserved region when no cell of it is listed. -/
theorem witness_StepsKeepTheInvariants : State.reset.Inv ∧ ∃ t, step State.reset = .next t :=
  ⟨⟨rfl, fun _ _ => rfl, Framebuffer.wf_blank _ _, rfl⟩, _, rfl⟩

theorem witness_ReachableStatesMeetTheInvariants :
    State.reset.Inv ∧ Reachable (hostCall .step State.reset).1 :=
  ⟨witness_StepsKeepTheInvariants.1, .call .step State.reset (.new Config.thisCore [] rfl)⟩

/-- Two states that differ in bit 12 of `pc` and in bit 15 of `I`. -/
theorem witness_UpperAddressBitsAreUnobservable :
    SameLow State.reset ((State.reset.setPc 0x1200#16).setI 0x8000#16) := by
  constructor <;> first | rfl | decide

/-- A run that is safe for three steps: the self-jump of R83. -/
theorem witness_SafeFor : SafeFor 3 (loaded 0x1200) := ⟨_, rfl, _, rfl, _, rfl, trivial⟩

end Sys2Proof.Tests
end

section
/-! PROOFS. What one completed execute phase does to the registers and to `pc`, beside `exec_effects` and
`exec_advances` (spec 10_state.md R22, R25). -/

namespace Sys2Proof.Machine

/-- A skip writes no register (R100). -/
@[simp] theorem State.skipIf_reg (s : State) (c : Bool) (r : Reg) : (s.skipIf c).reg r = s.reg r := by
  cases c <;> rfl

/-- A block load leaves the registers above its last one alone (R131). -/
theorem State.setV_loadedBlock_reg_of_lt (s : State) {x r : Reg} (h : x < r) :
    (s.setV (s.loadedBlock x)).reg r = s.reg r :=
  (s.loadedBlock_get x r).trans (if_neg (not_le.mpr h))

theorem StoresOnly.reg {s t : State} (h : StoresOnly s t) (r : Reg) : t.reg r = s.reg r := by
  rw [State.reg, State.reg, h.V]

/-- A return that completes pops one entry and goes two past it (R101). -/
theorem exec_op00EE_next {s t : State} (h : exec .op00EE s = .next t) : ∃ n, ∃ hn : n < 16, s.sp.val = n + 1 ∧
    t = (s.setStack s.stack ⟨n, by omega⟩).setPc (s.stack[n] + 2#16) := by
  obtain ⟨-, e⟩ | ⟨n, hn, hsp, e⟩ := s.pop_cases fun v t => .next (t.setPc (v + 2#16)) <;> cases e.symm.trans h
  exact ⟨n, hn, hsp, rfl⟩

/-- A call that completes pushes its own address and goes to `NNN` (R103). -/
theorem exec_op2NNN_next {nnn : Addr} {s t : State} (h : exec (.op2NNN nnn) s = .next t) :
    ∃ hn : s.sp.val < 16,
      t = (s.setStack (s.stack.set s.sp.val s.pc hn) ⟨s.sp.val + 1, by omega⟩).setPc nnn.zext := by
  obtain ⟨-, e⟩ | ⟨hn, e⟩ := s.push_cases s.pc fun t => .next (t.setPc nnn.zext) <;> cases e.symm.trans h
  exact ⟨hn, rfl⟩

/-- A key wait changes nothing while no key is pressed, and otherwise writes its register and goes on (R144). -/
theorem exec_opFX0A_next {x : Reg} {s t : State} (h : exec (.opFX0A x) s = .next t) :
    ((∀ k : Reg, s.keypad[k] = false) ∧ t = s) ∨ ∃ b, t = (s.setReg x b).advance := by
  rw [exec, execFX0A] at h
  obtain ⟨e, hk⟩ | ⟨k, e, -, -⟩ := keySelect_cases s.cfg.keyPolicy s.keypad <;> rw [e] at h <;> cases h
  · exact .inl ⟨hk, rfl⟩
  · exact .inr ⟨_, rfl⟩

/-- A register that an instruction does not name, and `VF` where it is no flag writer, is unchanged (R22). -/
theorem exec_reg_of_not_mayWrite {i : Instr} {s t : State} {r : Reg} (h : exec i s = .next t)
    (hr : Instr.mayWrite i r = false) : t.reg r = s.reg r := by
  cases i
  case op00EE =>
    obtain ⟨n, hn, -, rfl⟩ := exec_op00EE_next h
    rfl
  case op2NNN nnn =>
    obtain ⟨hn, rfl⟩ := exec_op2NNN_next h
    rfl
  case opFX0A x =>
    obtain ⟨-, rfl⟩ | ⟨b, rfl⟩ := exec_opFX0A_next h
    · rfl
    · have hx : r ≠ x := by simpa [Instr.mayWrite] using hr
      exact s.setReg_reg_ne x r b hx
  case opFX33 | opFX55 =>
    all_goals
      obtain rfl := Host.Outcome.next.inj h
      simp [State.advanceI, (State.storeBytes_only _ _ _).reg]
  case opFX65 x =>
    obtain rfl := Host.Outcome.next.inj h
    have hx : x < r := by simpa [Instr.mayWrite] using hr
    simp [State.advanceI, s.setV_loadedBlock_reg_of_lt hx]
  all_goals
    obtain rfl := Host.Outcome.next.inj h
    simp_all [Instr.mayWrite, State.setReg_reg, State.setFlagThen_reg]

/-- An addition to `pc`, read as numbers (R25). -/
theorem PcPlus.of_add {s t : State} {n : Nat} (h : t.pc = s.pc + BitVec.ofNat 16 n) : PcPlus n s t := by
  simp [PcPlus, h]

theorem State.skipIf_pcPlus (s : State) (c : Bool) : PcPlus 2 s (s.skipIf c) ∨ PcPlus 4 s (s.skipIf c) := by
  cases c
  · exact .inl (.of_add rfl)
  · exact .inr (.of_add rfl)

theorem Addr.zext_toNat (a : Addr) : a.zext.toNat = a.toNat := by
  simp [Addr.zext]; omega

/-- `NNN + V0` is at most 0x10FE, so the sum does not wrap (R108). -/
theorem State.offsetTarget_toNat (s : State) (nnn : Addr) :
    (s.offsetTarget nnn).toNat = nnn.toNat + (s.reg 0).toNat := by
  have h0 : (s.reg 0).toNat < 256 := (s.reg 0).isLt
  have hn : nnn.toNat < 4096 := nnn.isLt
  simp [State.offsetTarget, Byte.zext]
  omega

/-- Where `pc` can be after an execute phase that completed (R25, R109). -/
theorem exec_pc_cases {i : Instr} {s t : State} (h : exec i s = .next t) :
    PcPlus 2 s t ∨ PcPlus 4 s t ∨
    (∃ nnn, (i = .op1NNN nnn ∨ i = .op2NNN nnn) ∧ t.pc.toNat = nnn.toNat) ∨
    (∃ nnn, i = .opBNNN nnn ∧ t.pc.toNat = nnn.toNat + (s.reg 0).toNat) ∨
    (∃ n, ∃ hn : n < 16, i = .op00EE ∧ s.sp.val = n + 1 ∧ t.pc.toNat = (s.stack[n].toNat + 2) % 65536) ∨
    (∃ x, i = .opFX0A x ∧ (∀ k : Reg, s.keypad[k] = false) ∧ t.pc = s.pc) := by
  cases hm : Instr.movesPc i
  case false => exact .inl (.of_add (exec_advances hm h))
  cases i <;> simp only [Instr.movesPc, Bool.false_eq_true] at hm
  case op00EE =>
    obtain ⟨n, hn, hsp, rfl⟩ := exec_op00EE_next h
    exact .inr (.inr (.inr (.inr (.inl ⟨n, hn, rfl, hsp, by simp⟩))))
  case op1NNN nnn =>
    obtain rfl := Host.Outcome.next.inj h
    exact .inr (.inr (.inl ⟨nnn, .inl rfl, Addr.zext_toNat nnn⟩))
  case op2NNN nnn =>
    obtain ⟨hn, rfl⟩ := exec_op2NNN_next h
    exact .inr (.inr (.inl ⟨nnn, .inr rfl, Addr.zext_toNat nnn⟩))
  case opBNNN nnn =>
    obtain rfl := Host.Outcome.next.inj h
    exact .inr (.inr (.inr (.inl ⟨nnn, rfl, s.offsetTarget_toNat nnn⟩)))
  case opFX0A x =>
    obtain ⟨hk, rfl⟩ | ⟨b, rfl⟩ := exec_opFX0A_next h
    · exact .inr (.inr (.inr (.inr (.inr ⟨x, rfl, hk, rfl⟩))))
    · exact .inl (.of_add rfl)
  all_goals
    obtain rfl := Host.Outcome.next.inj h
    exact (s.skipIf_pcPlus _).imp_right .inl

end Sys2Proof.Machine
end

section
/-! PROOFS. What a completed step does to each part of the state, one lemma per part: the effects of its execute phase
or of the permissive unknown opcode, then the timer phase (spec 40_step_cycle.md R90, R94). -/

namespace Sys2Proof.Machine

/-- The instruction a step fetched is none that it does not fetch. -/
theorem Fetches.ne {s : State} {i j : Instr} (hi : Fetches s i) (hj : ¬Fetches s j) : i ≠ j := by
  rintro rfl
  exact hj hi

theorem Fetches.unique {s : State} {i j : Instr} (hi : Fetches s i) (hj : Fetches s j) : i = j :=
  Decoded.instr.inj (hi.symm.trans hj)

section
variable {s t : State} (h : step s = .next t)
include h

theorem step_keypad : t.keypad = s.keypad := by
  obtain ⟨i, u, -, hu, rfl⟩ | ⟨op, -, -, rfl⟩ := step_next_cases h
  · simpa using (exec_effects hu).keypad
  · simp

theorem step_cfg : t.cfg = s.cfg := by
  obtain ⟨i, u, -, hu, rfl⟩ | ⟨op, -, -, rfl⟩ := step_next_cases h
  · simpa using (exec_effects hu).cfg
  · simp

theorem step_reg {r : Reg} (hr : ∀ i, Fetches s i → Instr.mayWrite i r = false) : t.reg r = s.reg r := by
  obtain ⟨i, u, hi, hu, rfl⟩ | ⟨op, -, -, rfl⟩ := step_next_cases h
  · simpa using exec_reg_of_not_mayWrite hu (hr i hi)
  · simp

theorem step_pcPlus_two (hm : ∀ i, Fetches s i → Instr.movesPc i = false) : PcPlus 2 s t := by
  obtain ⟨i, u, hi, hu, rfl⟩ | ⟨op, -, -, rfl⟩ := step_next_cases h
  · exact .of_add (by simpa using exec_advances (hm i hi) hu)
  · exact .of_add (by simp)

theorem step_stack (hcall : ∀ nnn, ¬Fetches s (.op2NNN nnn)) (hret : ¬Fetches s .op00EE) :
    t.stack = s.stack ∧ t.sp = s.sp := by
  obtain ⟨i, u, hi, hu, rfl⟩ | ⟨op, -, -, rfl⟩ := step_next_cases h
  · simpa using (exec_effects hu).stack (fun nnn => Fetches.ne hi (hcall nnn)) (Fetches.ne hi hret)
  · simp

theorem step_display (hcls : ¬Fetches s .op00E0) (hdrw : ∀ x y n, ¬Fetches s (.opDXYN x y n)) :
    t.fb = s.fb ∧ t.redraw = s.redraw := by
  obtain ⟨i, u, hi, hu, rfl⟩ | ⟨op, -, -, rfl⟩ := step_next_cases h
  · simpa using (exec_effects hu).display (Fetches.ne hi hcls) fun x y n => Fetches.ne hi (hdrw x y n)
  · simp

theorem step_random (hrnd : ∀ x nn, ¬Fetches s (.opCXNN x nn)) : t.random = s.random := by
  obtain ⟨i, u, hi, hu, rfl⟩ | ⟨op, -, -, rfl⟩ := step_next_cases h
  · simpa using (exec_effects hu).random fun x nn => Fetches.ne hi (hrnd x nn)
  · simp

theorem step_index (hld : ∀ nnn, ¬Fetches s (.opANNN nnn))
    (hx : ∀ x, ¬(Fetches s (.opFX1E x) ∨ Fetches s (.opFX29 x) ∨ Fetches s (.opFX55 x) ∨ Fetches s (.opFX65 x))) :
    t.I = s.I := by
  obtain ⟨i, u, hi, hu, rfl⟩ | ⟨op, -, -, rfl⟩ := step_next_cases h
  · simp only [not_or] at hx
    exact (exec_effects hu).index (fun nnn => Fetches.ne hi (hld nnn)) (fun x => Fetches.ne hi (hx x).1)
      (fun x => Fetches.ne hi (hx x).2.1) (fun x => Fetches.ne hi (hx x).2.2.1) fun x => Fetches.ne hi (hx x).2.2.2
  · simp

/-- Only the two stores change memory (R23, R51). -/
theorem step_byteAt (hbcd : ∀ x, ¬Fetches s (.opFX33 x)) (hst : ∀ x, ¬Fetches s (.opFX55 x)) (a : Nat) :
    t.byteAt a = s.byteAt a := by
  obtain ⟨i, u, hi, hu, rfl⟩ | ⟨op, -, -, rfl⟩ := step_next_cases h
  · have e := exec_effects hu
    obtain ⟨hmem, -⟩ := e.memory (fun x => Fetches.ne hi (hbcd x)) fun x => Fetches.ne hi (hst x)
    simp [State.byteAt, hmem, e.cfg]
  · simp

/-- No instruction but the two stores reports an event (R170). -/
theorem step_diagnostics_nil (hbcd : ∀ x, ¬Fetches s (.opFX33 x)) (hst : ∀ x, ¬Fetches s (.opFX55 x))
    {j : Instr} (hj : Fetches s j) : t.diagnostics = [] := by
  obtain ⟨i, u, hi, hu, rfl⟩ | ⟨op, hop, -, -⟩ := step_next_cases h
  · exact ((exec_effects hu).memory (fun x => Fetches.ne hi (hbcd x)) fun x => Fetches.ne hi (hst x)).2
  · exact nomatch hop.symm.trans hj

/-- A store aimed below 0x200 is suppressed, so the reserved region survives every step (R54). -/
theorem step_byteAt_reserved {a : Nat} (ha : a < 0x200) : t.byteAt a = s.byteAt a := by
  obtain ⟨i, u, -, hu, rfl⟩ | ⟨op, -, -, rfl⟩ := step_next_cases h
  · simpa using (exec_effects hu).reserved a ha
  · simp

theorem step_memWf (hs : s.memWf = true) : t.memWf = true := by
  obtain ⟨i, u, -, hu, rfl⟩ | ⟨op, -, -, rfl⟩ := step_next_cases h
  · simpa using (exec_effects hu).canonical hs
  · simpa using hs

/-- Clearing and drawing keep the framebuffer's size (R33). -/
theorem step_fb_wf (hs : s.fb.wf s.cfg.width s.cfg.height = true) : t.fb.wf t.cfg.width t.cfg.height = true := by
  rw [step_cfg h]
  obtain ⟨i, u, -, hu, rfl⟩ | ⟨op, -, -, rfl⟩ := step_next_cases h
  · simpa using (exec_effects hu).displaySize hs
  · simpa using hs

theorem step_delay (hset : ∀ x, ¬Fetches s (.opFX15 x)) : t.delay.toNat = s.delay.toNat - 1 := by
  obtain ⟨i, u, hi, hu, rfl⟩ | ⟨op, -, -, rfl⟩ := step_next_cases h
  · simp [(exec_effects hu).delay fun x => Fetches.ne hi (hset x)]
  · simp

theorem step_sound (hset : ∀ x, ¬Fetches s (.opFX18 x)) :
    t.sound.toNat = s.sound.toNat - 1 ∧ (t.beep = true ↔ s.beep = true ∨ s.sound.toNat = 1) := by
  obtain ⟨i, u, hi, hu, rfl⟩ | ⟨op, -, -, rfl⟩ := step_next_cases h
  · have e := exec_effects hu
    simp [e.sound fun x => Fetches.ne hi (hset x), e.beep, ← BitVec.toNat_inj]
  · simp [← BitVec.toNat_inj]

/-- A step that sets `sound` beeps exactly when it sets it to 1: the tick to 0 follows in the same step (R146). -/
theorem step_beep_of_fetches_FX18 {x : Reg} (hx : Fetches s (.opFX18 x)) :
    t.beep = true ↔ s.beep = true ∨ (s.reg x).toNat = 1 := by
  obtain ⟨i, u, hi, hu, rfl⟩ | ⟨op, hop, -, -⟩ := step_next_cases h
  · obtain rfl := Fetches.unique hi hx
    obtain rfl := Host.Outcome.next.inj hu
    simp [← BitVec.toNat_inj]
  · exact nomatch hop.symm.trans hx

/-- No step clears the redraw flag (R32). -/
theorem step_redraw_of_redraw (hs : s.redraw = true) : t.redraw = true := by
  obtain ⟨i, u, -, hu, rfl⟩ | ⟨op, -, -, rfl⟩ := step_next_cases h
  · by_cases hd : i = .op00E0 ∨ ∃ x y n, i = .opDXYN x y n
    · simpa using (exec_effects hu).redraw hd
    · push Not at hd
      exact ((exec_effects hu).display hd.1 hd.2).2.trans hs
  · simpa using hs

/-- No step clears the beep flag (R34). -/
theorem step_beep_of_beep (hs : s.beep = true) : t.beep = true := by
  obtain ⟨i, u, -, hu, rfl⟩ | ⟨op, -, -, rfl⟩ := step_next_cases h
  · simp [(exec_effects hu).beep, hs]
  · simp [hs]

theorem step_pc_cases :
    PcPlus 2 s t ∨ PcPlus 4 s t ∨
    (∃ nnn, (Fetches s (.op1NNN nnn) ∨ Fetches s (.op2NNN nnn)) ∧ t.pc.toNat = nnn.toNat) ∨
    (∃ nnn, Fetches s (.opBNNN nnn) ∧ t.pc.toNat = nnn.toNat + (s.reg 0).toNat) ∨
    (∃ n, ∃ _ : n < 16, Fetches s .op00EE ∧ s.sp.val = n + 1 ∧ t.pc.toNat = (s.stack[n].toNat + 2) % 65536) ∨
    (∃ x, Fetches s (.opFX0A x) ∧ (∀ k : Reg, s.keypad[k] = false) ∧ t.pc = s.pc) := by
  obtain ⟨i, u, hi, hu, rfl⟩ | ⟨op, -, -, rfl⟩ := step_next_cases h
  · change Fetches s i at hi
    obtain h2 | h4 | ⟨nnn, rfl | rfl, hpc⟩ | ⟨nnn, rfl, hpc⟩ | ⟨n, hn, rfl, hsp, hpc⟩ | ⟨x, rfl, hk, hpc⟩ :=
      exec_pc_cases hu
    · exact .inl h2
    · exact .inr (.inl h4)
    · exact .inr (.inr (.inl ⟨nnn, .inl hi, hpc⟩))
    · exact .inr (.inr (.inl ⟨nnn, .inr hi, hpc⟩))
    · exact .inr (.inr (.inr (.inl ⟨nnn, hi, hpc⟩)))
    · exact .inr (.inr (.inr (.inr (.inl ⟨n, hn, hi, hsp, hpc⟩))))
    · exact .inr (.inr (.inr (.inr (.inr ⟨x, hi, hk, hpc⟩))))
  · exact .inl (.of_add rfl)

end

end Sys2Proof.Machine
end

section
/-! PROOFS. The invariants of spec 10_state.md R37: construction, every step and every host operation keep them. -/

namespace Sys2Proof.Machine

/-- Right after construction every address reads as nothing written yet (R23). -/
@[simp] theorem State.new_byteAt (c : Config) (injected : List Byte) (a : Nat) :
    (State.new c injected).byteAt a = Memory.initial c.font a := rfl

theorem Memory.initial_font (f : Font) {a : Nat} (h : a < 80) : Memory.initial f a = f[a] := dif_pos h

theorem Memory.initial_zero (f : Font) {a : Nat} (h : 80 ≤ a) : Memory.initial f a = 0#8 :=
  dif_neg (Nat.not_lt.mpr h)

theorem State.new_inv {c : Config} (injected : List Byte) (h : c.wf = true) : (State.new c injected).Inv where
  memory := rfl
  reserved _ _ := rfl
  display := Framebuffer.wf_blank _ _
  config := h

theorem step_inv {s t : State} (hs : s.Inv) (h : step s = .next t) : t.Inv where
  memory := step_memWf h hs.memory
  reserved a ha := by rw [step_byteAt_reserved h ha, step_cfg h, hs.reserved a ha]
  display := step_fb_wf h hs.display
  config := by rw [step_cfg h, hs.config]

/-- The parts a load leaves alone are all but memory (R151). -/
@[simp] theorem State.pokeBytes_cfg (s : State) (a : Nat) (bs : List Byte) : (s.pokeBytes a bs).cfg = s.cfg := by
  rw [State.pokeBytes_eq]; rfl

@[simp] theorem State.pokeBytes_fb (s : State) (a : Nat) (bs : List Byte) : (s.pokeBytes a bs).fb = s.fb := by
  rw [State.pokeBytes_eq]; rfl

@[simp] theorem State.pokeBytes_redraw (s : State) (a : Nat) (bs : List Byte) :
    (s.pokeBytes a bs).redraw = s.redraw := by
  rw [State.pokeBytes_eq]; rfl

@[simp] theorem State.pokeBytes_beep (s : State) (a : Nat) (bs : List Byte) : (s.pokeBytes a bs).beep = s.beep := by
  rw [State.pokeBytes_eq]; rfl

/-- A program that fits ends at 0xFFF, so writing it from 0x200 up does not wrap into the reserved region (R151). -/
theorem State.pokeBytes_reserved (s : State) {bytes : List Byte} (hlen : bytes.length ≤ 3584) {a : Nat}
    (ha : a < 0x200) : (s.pokeBytes 0x200 bytes).byteAt a = s.byteAt a := by
  apply State.pokeBytes_read_other
  intro k hk
  simp only [cellOf, Config.memSize]
  omega

theorem callLoad_inv {s : State} (bytes : List Byte) (hs : s.Inv) : (callLoad bytes s).1.Inv := by
  obtain ⟨hlen, e⟩ | ⟨-, e⟩ := callLoad_cases bytes s <;> rw [e]
  · exact
      { memory := s.pokeBytes_wf _ _ hs.memory
        reserved := fun a ha => by rw [s.pokeBytes_reserved hlen ha, State.pokeBytes_cfg, hs.reserved a ha]
        display := by simpa using hs.display
        config := by simpa using hs.config }
  · exact hs

theorem callStep_inv {s : State} (hs : s.Inv) : (callStep s).1.Inv := by
  obtain ⟨t, h, e⟩ | ⟨f, -, e⟩ | ⟨r, -, e⟩ := callStep_cases s <;> rw [e]
  · exact step_inv hs h
  · exact hs
  · exact hs

/-- Neither the keypad nor a flag occurs in the invariants (R153, R156, R157). -/
theorem State.Inv.of_same_parts {s t : State} (hs : s.Inv) (hmem : t.mem = s.mem) (hcfg : t.cfg = s.cfg)
    (hfb : t.fb = s.fb) : t.Inv where
  memory := by rw [State.memWf, hmem, hcfg]; exact hs.memory
  reserved a ha := by rw [State.byteAt, hmem, hcfg]; exact hs.reserved a ha
  display := by rw [hfb, hcfg]; exact hs.display
  config := by rw [hcfg]; exact hs.config

theorem hostCall_inv (op : HostOp) {s : State} (hs : s.Inv) : (hostCall op s).1.Inv := by
  cases op with
  | loadProgram bytes => exact callLoad_inv bytes hs
  | step => exact callStep_inv hs
  | setKeypad snapshot | clearRedraw | takeRedrawFlag | pendingBeep => exact hs.of_same_parts rfl rfl rfl
  | framebuffer | pixelAt x y | getRedraw => exact hs

theorem Reachable.inv {s : State} (h : Reachable s) : s.Inv := by
  induction h with
  | new c injected hc => exact State.new_inv injected hc
  | call op s _ ih => exact hostCall_inv op ih

theorem thisCore_wf : Config.thisCore.wf = true := rfl

end Sys2Proof.Machine
end

section
/-! PROOFS. The two flags over host operations (spec 10_state.md R32, R34, R37(f)), and calls in a row (R27, R103). -/

namespace Sys2Proof.Machine

@[simp] theorem callLoad_redraw (bytes : List Byte) (s : State) : (callLoad bytes s).1.redraw = s.redraw := by
  obtain ⟨-, e⟩ | ⟨-, e⟩ := callLoad_cases bytes s <;> simp [e]

@[simp] theorem callLoad_beep (bytes : List Byte) (s : State) : (callLoad bytes s).1.beep = s.beep := by
  obtain ⟨-, e⟩ | ⟨-, e⟩ := callLoad_cases bytes s <;> simp [e]

theorem callStep_redraw_of_redraw {s : State} (hs : s.redraw = true) : (callStep s).1.redraw = true := by
  obtain ⟨t, h, e⟩ | ⟨f, -, e⟩ | ⟨r, -, e⟩ := callStep_cases s <;> rw [e]
  · exact step_redraw_of_redraw h hs
  · exact hs
  · exact hs

theorem callStep_beep_of_beep {s : State} (hs : s.beep = true) : (callStep s).1.beep = true := by
  obtain ⟨t, h, e⟩ | ⟨f, -, e⟩ | ⟨r, -, e⟩ := callStep_cases s <;> rw [e]
  · exact step_beep_of_beep h hs
  · exact hs
  · exact hs

/-- What each host operation does to the redraw flag (R32, R156). -/
theorem hostCall_redraw_cases (op : HostOp) (s : State) :
    (op = .step ∧ (s.redraw = true → (hostCall op s).1.redraw = true)) ∨
    ((op = .clearRedraw ∨ op = .takeRedrawFlag) ∧ (hostCall op s).1.redraw = false) ∨
    (hostCall op s).1.redraw = s.redraw := by
  cases op with
  | step => exact .inl ⟨rfl, callStep_redraw_of_redraw⟩
  | clearRedraw => exact .inr (.inl ⟨.inl rfl, rfl⟩)
  | takeRedrawFlag => exact .inr (.inl ⟨.inr rfl, rfl⟩)
  | loadProgram bytes => exact .inr (.inr (callLoad_redraw bytes s))
  | setKeypad snapshot | framebuffer | pixelAt x y | getRedraw | pendingBeep => exact .inr (.inr rfl)

/-- What each host operation does to the beep flag (R34, R157). -/
theorem hostCall_beep_cases (op : HostOp) (s : State) :
    (op = .step ∧ (s.beep = true → (hostCall op s).1.beep = true)) ∨
    (op = .pendingBeep ∧ (hostCall op s).1.beep = false) ∨
    (hostCall op s).1.beep = s.beep := by
  cases op with
  | step => exact .inl ⟨rfl, callStep_beep_of_beep⟩
  | pendingBeep => exact .inr (.inl ⟨rfl, rfl⟩)
  | loadProgram bytes => exact .inr (.inr (callLoad_beep bytes s))
  | setKeypad snapshot | framebuffer | pixelAt x y | getRedraw | clearRedraw | takeRedrawFlag =>
    exact .inr (.inr rfl)

theorem exec_call_of_full {s : State} (nnn : Addr) (hsp : s.sp.val = 16) :
    exec (.op2NNN nnn) s = .fault (.stackOverflow s.pc) := by
  obtain ⟨-, e⟩ | ⟨h, -⟩ := s.push_cases s.pc fun t => .next (t.setPc nnn.zext)
  · exact e
  · omega

/-- A call with room on the stack completes with one entry more; the entries in use before are kept (R28, R103). -/
theorem exec_call_of_room {s : State} (nnn : Addr) (hsp : s.sp.val < 16) : ∃ t, exec (.op2NNN nnn) s = .next t ∧
    t.sp.val = s.sp.val + 1 ∧ ∀ j, (h : j < 16) → j < s.sp.val → t.stack[j] = s.stack[j] := by
  obtain ⟨h, -⟩ | ⟨h, e⟩ := s.push_cases s.pc fun t => .next (t.setPc nnn.zext)
  · omega
  · exact ⟨_, e, rfl, fun j hj hlt => Vector.getElem_set_ne h hj (by omega)⟩

/-- As many calls as there are free entries fill the stack and keep the entries in use (R27). -/
theorem callAll_fills (targets : List Addr) : (s : State) → s.sp.val + targets.length = 16 →
    ∃ t, callAll targets s = .next t ∧ t.sp.val = 16 ∧
      ∀ j, (h : j < 16) → j < s.sp.val → t.stack[j] = s.stack[j] := by
  induction targets with
  | nil => exact fun s hs => ⟨s, rfl, hs, fun _ _ _ => rfl⟩
  | cons a rest ih =>
    intro s hs
    rw [List.length_cons] at hs
    obtain ⟨t, hcall, hsp, hkept⟩ := exec_call_of_room (s := s) a (by omega)
    obtain ⟨u, hrest, hfull, hkept'⟩ := ih t (by omega)
    refine ⟨u, by rw [callAll, hcall]; exact hrest, hfull, fun j hj hlt => ?_⟩
    rw [hkept' j hj (by omega), hkept j hj hlt]

end Sys2Proof.Machine
end

section
/-! PROOFS. The statements about the state (spec 10_state.md), each from the lemmas above. -/

namespace Sys2Proof.Machine

/-- Settles O57, part by part of the invariant. -/
theorem stepsKeepTheInvariants : Obligations.StepsKeepTheInvariants :=
  fun _ _ hs h => step_inv hs h

/-- Settles O58: each operation by `hostCall_inv`, reachable states by induction on how they are reached. -/
theorem reachableStatesMeetTheInvariants : Obligations.ReachableStatesMeetTheInvariants :=
  ⟨fun op _ hs => hostCall_inv op hs, fun _ h => h.inv⟩

/-- Settles O15, by induction on the calls. -/
theorem seventeenthNestedCallOverflows : Obligations.SeventeenthNestedCallOverflows := by
  intro targets s hs
  obtain ⟨t, hall, hfull, hkept⟩ := callAll_fills targets s hs
  exact ⟨t, hall, hfull, hkept, fun nnn => exec_call_of_full nnn hfull⟩

/-- Settles O24, by the cases of the instruction. -/
theorem onlyNamedRegistersAreWritten : Obligations.OnlyNamedRegistersAreWritten :=
  fun _ _ _ h _ hr => exec_reg_of_not_mayWrite h hr

/-- Settles O40: the timer phase after an execute phase that left the timer alone. -/
theorem timersFallOncePerCompletedStep : Obligations.TimersFallOncePerCompletedStep :=
  fun _ _ h => ⟨step_delay h, step_sound h⟩

/-- Settles O48: an operation is the step, which clears no flag, or clears the flag, or leaves it alone. -/
theorem flagsRiseInStepsAndFallInHostCalls : Obligations.FlagsRiseInStepsAndFallInHostCalls := by
  intro op s
  refine ⟨?_, ?_, ?_, ?_⟩
  · intro hs ht
    obtain ⟨rfl, -⟩ | ⟨-, e⟩ | e := hostCall_redraw_cases op s <;> simp_all
  · intro hs ht
    obtain ⟨rfl, -⟩ | ⟨-, e⟩ | e := hostCall_beep_cases op s <;> simp_all
  · intro hs ht
    obtain ⟨rfl, e⟩ | ⟨hop, -⟩ | e := hostCall_redraw_cases op s <;> simp_all
  · intro hs ht
    obtain ⟨rfl, e⟩ | ⟨hop, -⟩ | e := hostCall_beep_cases op s <;> simp_all

/-- Settles O53, by the cases of the instruction; an unknown opcode moves `pc` two on. -/
theorem pcHasOnlyTheseSuccessors : Obligations.PcHasOnlyTheseSuccessors :=
  fun _ _ h => step_pc_cases h

/-- Settles O54, one lemma about the step for each part of the state. -/
theorem stepsTouchEachPartByItsOwnInstructions : Obligations.StepsTouchEachPartByItsOwnInstructions :=
  fun _ _ h => ⟨step_keypad h, step_cfg h, fun _ => step_reg h, step_pcPlus_two h, step_stack h, step_display h,
    step_random h, step_index h,
    fun hbcd hst => ⟨step_byteAt h hbcd hst, fun ⟨_, hj⟩ => step_diagnostics_nil h hbcd hst hj⟩,
    step_delay h, step_sound h, fun _ => step_beep_of_fetches_FX18 h⟩

/-- Settles O55: a store below 0x200 is suppressed, and no other instruction stores. -/
theorem stepsNeverWriteTheReservedRegion : Obligations.StepsNeverWriteTheReservedRegion :=
  fun _ _ h => ⟨fun _ => step_byteAt_reserved h, step_byteAt h⟩

/-- Settles O41: an empty list of cells reads as the font and zeros above it. -/
theorem resetLeavesTheGivenValues : Obligations.ResetLeavesTheGivenValues := by
  refine ⟨fun c injected => ⟨fun a ha => ?_, fun a ha => ?_, rfl, rfl, rfl⟩,
    ⟨Config.thisCore, [], rfl, thisCore_wf⟩, rfl⟩
  · rw [State.new_byteAt, Memory.initial_font c.font ha]
  · rw [State.new_byteAt, Memory.initial_zero c.font ha]

/-- Settles O56: the reset state is a construction with legal parameters. -/
theorem constructionMeetsTheInvariants : Obligations.ConstructionMeetsTheInvariants :=
  ⟨State.new_inv [] thisCore_wf, fun _ injected hc => State.new_inv injected hc⟩

end Sys2Proof.Machine
end

section
/-! PROOFS. States that agree up to bits 15:12 of their addresses (spec 20_memory.md R65): every operation a meaning is
written with takes related states to related states, and reads the same of both. -/

namespace Sys2Proof.Machine

/-! Addresses modulo 4096 (R52). -/

/-- The cell at an offset depends on the cell only. -/
theorem cellOf_add {a b : Nat} (h : cellOf b = cellOf a) (k : Nat) : cellOf (b + k) = cellOf (a + k) :=
  Nat.ModEq.add_right k h

/-- An addition modulo 65536 (R25, R26) does not see what bits 15:12 held. -/
theorem low12_add {v w : Word} (h : low12 w = low12 v) (k : Word) : low12 (w + k) = low12 (v + k) := by
  simp only [low12, BitVec.toNat_add] at h ⊢
  omega

namespace SameLow

variable {s t : State} (h : SameLow s t)
include h

/-! What related states read alike. -/

theorem reg (r : Reg) : t.reg r = s.reg r := by
  rw [State.reg, State.reg, h.V]

theorem memRead {a b : Nat} (hab : cellOf b = cellOf a) : t.memRead b = s.memRead a := by
  rw [State.memRead, State.memRead, State.byteAt, State.byteAt, hab, h.mem, h.cfg]

theorem cellOf_indexAddr (k : Nat) : cellOf (t.indexAddr k) = cellOf (s.indexAddr k) := cellOf_add h.I k

/-- Related states fetch the same word, by R53's reduction of each byte address. -/
theorem fetchWord : t.fetchWord = s.fetchWord := by
  rw [State.fetchWord, State.fetchWord, h.memRead h.pc, h.memRead (cellOf_add h.pc 1)]

theorem keyPressed (x : Reg) : t.keyPressed x = s.keyPressed x := by
  simp only [State.keyPressed, h.keypad, h.reg]

theorem offsetTarget (nnn : Addr) : t.offsetTarget nnn = s.offsetTarget nnn := by
  rw [State.offsetTarget, State.offsetTarget, h.reg]

theorem registerBlock (x : Reg) : t.registerBlock x = s.registerBlock x := by
  rw [State.registerBlock, State.registerBlock, h.V]

theorem loadedBlock (x : Reg) : t.loadedBlock x = s.loadedBlock x := by
  simp only [State.loadedBlock, h.memRead (h.cellOf_indexAddr _), h.reg]

theorem spriteRows (n : Nibble) : t.spriteRows n = s.spriteRows n := by
  simp only [State.spriteRows, h.memRead (h.cellOf_indexAddr _)]

theorem drawSprite (x y : Reg) (n : Nibble) : t.drawSprite x y n = s.drawSprite x y n := by
  rw [State.drawSprite, State.drawSprite, h.cfg, h.reg, h.reg, h.spriteRows, h.fb]

/-! One rule per update: the same value, or one with the same low 12 bits. -/

theorem setMem {m n : Memory} (e : n = m) : SameLow (s.setMem m) (t.setMem n) := { h with mem := e }

theorem setV {v w : Vector Byte 16} (e : w = v) : SameLow (s.setV v) (t.setV w) := { h with V := e }

theorem setI {i j : Word} (e : low12 j = low12 i) : SameLow (s.setI i) (t.setI j) := { h with I := e }

theorem setPc {p q : Word} (e : low12 q = low12 p) : SameLow (s.setPc p) (t.setPc q) := { h with pc := e }

theorem setStack {st st' : Vector Word 16} (n : Fin 17) (e : ∀ j : Fin 16, low12 st'[j] = low12 st[j]) :
    SameLow (s.setStack st n) (t.setStack st' n) :=
  { h with stack := e, sp := rfl }

theorem setDelay {b c : Byte} (e : c = b) : SameLow (s.setDelay b) (t.setDelay c) := { h with delay := e }

theorem setSound {b c : Byte} (e : c = b) : SameLow (s.setSound b) (t.setSound c) := { h with sound := e }

theorem setFb {f g : Framebuffer} (e : g = f) : SameLow (s.setFb f) (t.setFb g) := { h with fb := e }

theorem setRedraw (b : Bool) : SameLow (s.setRedraw b) (t.setRedraw b) := { h with redraw := rfl }

theorem setBeep {b c : Bool} (e : c = b) : SameLow (s.setBeep b) (t.setBeep c) := { h with beep := e }

theorem setRandom {r q : RandomSource} (e : q = r) : SameLow (s.setRandom r) (t.setRandom q) :=
  { h with random := e }

theorem setDiagnostics {d e : List Diagnostic} (hde : e.map Diagnostic.low = d.map Diagnostic.low) :
    SameLow (s.setDiagnostics d) (t.setDiagnostics e) :=
  { h with diagnostics := hde }

/-! The operations made of them. -/

theorem setReg (x : Reg) {b c : Byte} (e : c = b) : SameLow (s.setReg x b) (t.setReg x c) :=
  h.setV (by rw [h.V, e])

theorem setFlagThen (x : Reg) {f g b c : Byte} (ef : g = f) (eb : c = b) :
    SameLow (s.setFlagThen f x b) (t.setFlagThen g x c) :=
  (h.setReg VF ef).setReg x eb

theorem advance : SameLow s.advance t.advance := h.setPc (low12_add h.pc 2#16)

theorem skipIf {c d : Bool} (e : d = c) : SameLow (s.skipIf c) (t.skipIf d) := by
  subst e
  cases d
  · exact h.advance
  · exact h.setPc (low12_add h.pc 4#16)

theorem advanceI (n : Nat) : SameLow (s.advanceI n) (t.advanceI n) := h.setI (low12_add h.I _)

theorem emit {d e : Diagnostic} (hde : e.low = d.low) : SameLow (s.emit d) (t.emit e) :=
  h.setDiagnostics (by simp [h.diagnostics, hde])

theorem poke {a b : Nat} (hab : cellOf b = cellOf a) (v : Byte) : SameLow (s.poke a v) (t.poke b v) :=
  h.setMem (by rw [h.mem, h.cfg, hab])

/-- A store is suppressed in both states or in neither, since R54 decides by the reduced address. -/
theorem memWrite {a b : Nat} (hab : cellOf b = cellOf a) (v : Byte) : SameLow (s.memWrite a v) (t.memWrite b v) := by
  rw [State.memWrite, State.memWrite, hab]
  split
  · exact h.emit (by simp [Diagnostic.low, h.pc])
  · exact h.poke hab v

theorem timerPhase : SameLow s.timerPhase t.timerPhase :=
  ((h.setBeep (by rw [h.beep, h.sound])).setDelay (by rw [h.delay])).setSound (by rw [h.sound])

omit h in
theorem storeBytes {a b : Nat} {s t : State} (h : SameLow s t) (hab : cellOf b = cellOf a) (bs : List Byte) :
    SameLow (s.storeBytes a bs) (t.storeBytes b bs) := by
  induction bs generalizing a b s t with
  | nil => exact h
  | cons v bs ih => exact ih (h.memWrite hab v) (cellOf_add hab 1)

/-- A store of related states' own bytes at their own `I` (R129, R130). -/
theorem storeAtIndex {bs cs : List Byte} (e : cs = bs) :
    SameLow (s.storeBytes (s.indexAddr 0) bs) (t.storeBytes (t.indexAddr 0) cs) :=
  e ▸ h.storeBytes (h.cellOf_indexAddr 0) bs

/-! The stack: both states fault, or both go on (R28). -/

theorem push {v w : Word} (hvw : low12 w = low12 v) {k l : State → Result}
    (hkl : ∀ {s' t'}, SameLow s' t' → SameLowResult (k s') (l t')) : SameLowResult (s.push v k) (t.push w l) := by
  have hsp := congrArg Fin.val h.sp
  obtain ⟨hs, es⟩ | ⟨hs, es⟩ := s.push_cases v k <;> obtain ⟨ht, et⟩ | ⟨ht, et⟩ := t.push_cases w l
  · rw [es, et]
    simp [SameLowResult, Fault.low, h.pc]
  · omega
  · omega
  · rw [es, et]
    simp only [h.sp]
    refine hkl (h.setStack _ fun j => ?_)
    simp only [Fin.getElem_fin, Vector.getElem_set]
    split
    · exact hvw
    · exact h.stack j

theorem pop {k l : Word → State → Result}
    (hkl : ∀ {v w s' t'}, low12 w = low12 v → SameLow s' t' → SameLowResult (k v s') (l w t')) :
    SameLowResult (s.pop k) (t.pop l) := by
  have hsp := congrArg Fin.val h.sp
  obtain ⟨hs, es⟩ | ⟨m, hm, hs, es⟩ := s.pop_cases k <;> obtain ⟨ht, et⟩ | ⟨n, hn, ht, et⟩ := t.pop_cases l
  · rw [es, et]
    simp [SameLowResult, Fault.low, h.pc]
  · omega
  · omega
  · obtain rfl : n = m := by omega
    rw [es, et]
    exact hkl (h.stack ⟨n, hn⟩) (h.setStack _ h.stack)

end SameLow

end Sys2Proof.Machine
end

section
/-! PROOFS. The step as a two-state lemma (spec 20_memory.md R65): execute phase, timer phase, step, then any number of
steps. -/

namespace Sys2Proof.Machine

variable {s t : State}

/-- `V[X]` and the advance, from related states. -/
theorem SameLow.writeResult (h : SameLow s t) (x : Reg) {b c : Byte} (e : c = b) :
    SameLowResult (writeResult x b s) (writeResult x c t) :=
  (h.setReg x e).advance

/-- `VF`, `V[X]` and the advance, from related states. -/
theorem SameLow.writeFlagged (h : SameLow s t) (x : Reg) {f g b c : Byte} (ef : g = f) (eb : c = b) :
    SameLowResult (writeFlagged f x b s) (writeFlagged g x c t) :=
  (h.setFlagThen x ef eb).advance

/-- A key wait depends on the configuration and the keypad only (R144, R147). -/
theorem execFX0A_sameLow (x : Reg) (h : SameLow s t) : SameLowResult (execFX0A x s) (execFX0A x t) := by
  rw [execFX0A, execFX0A, h.cfg, h.keypad]
  split
  · exact h
  · exact (h.setReg x rfl).advance

/-- Every execute phase takes related states to related results. -/
theorem exec_sameLow (i : Instr) (h : SameLow s t) : SameLowResult (exec i s) (exec i t) := by
  cases i
  case op00E0 => exact ((h.setFb (by rw [h.cfg])).setRedraw true).advance
  case op00EE =>
    simp only [exec, exec00EE]
    exact h.pop fun hvw h' => h'.setPc (low12_add hvw 2#16)
  case op1NNN => exact h.setPc rfl
  case op2NNN =>
    simp only [exec, exec2NNN]
    exact h.push h.pc fun h' => h'.setPc rfl
  case opBNNN nnn => exact h.setPc (by rw [h.offsetTarget])
  case op3XNN | op4XNN | op5XY0 | op9XY0 | opEX9E | opEXA1 =>
    all_goals exact h.skipIf (by simp only [h.reg, h.keyPressed])
  case op6XNN | op7XNN | op8XY0 | op8XY1 | op8XY2 | op8XY3 =>
    all_goals exact h.writeResult _ (by simp only [h.reg])
  case op8XY4 | op8XY5 | op8XY6 | op8XY7 =>
    all_goals exact h.writeFlagged _ (by simp only [h.reg]) (by simp only [h.reg])
  case op8XYE x y => exact ((h.setFlagThen x (by rw [h.reg]) (by rw [h.reg])).setReg y (by rw [h.reg])).advance
  case opCXNN x nn => exact (h.setRandom (by rw [h.random])).writeResult x (by rw [h.random])
  case opDXYN x y n =>
    exact (((h.setFb (by rw [h.drawSprite])).setReg VF (by rw [h.drawSprite])).setRedraw true).advance
  case opFX07 x => exact (h.setReg x h.delay).advance
  case opFX0A x => exact execFX0A_sameLow x h
  case opFX15 x => exact (h.setDelay (h.reg x)).advance
  case opFX18 x => exact (h.setSound (h.reg x)).advance
  case opANNN => exact (h.setI rfl).advance
  case opFX1E x => exact (h.setI (by rw [h.reg]; exact low12_add h.I _)).advance
  case opFX29 x => exact (h.setI (by rw [h.reg])).advance
  case opFX33 x => exact (h.storeAtIndex (by rw [h.reg])).advance
  case opFX55 x => exact ((h.storeAtIndex (h.registerBlock x)).advanceI _).advance
  case opFX65 x => exact ((h.setV (h.loadedBlock x)).advanceI _).advance

/-- The unknown opcode is reported or faults as the configuration says, which related states share (R95). -/
theorem execUnknown_sameLow (op : Word) (h : SameLow s t) : SameLowResult (execUnknown op s) (execUnknown op t) := by
  rw [execUnknown, execUnknown, h.cfg]
  cases s.cfg.illegalMode with
  | permissive => exact (h.emit (by simp [Diagnostic.low, h.pc])).advance
  | strict => simp [SameLowResult, raise, Fault.low, h.pc]

/-- Related results are of the same kind. -/
theorem SameLowResult.cases {r q : Result} (h : SameLowResult r q) :
    (∃ s t, r = .next s ∧ q = .next t ∧ SameLow s t) ∨ (∃ f g, r = .fault f ∧ q = .fault g ∧ g.low = f.low) ∨
    (∃ a, r = .refused a ∧ q = .refused a) :=
  match r, q, h with
  | .next s, .next t, h => .inl ⟨s, t, rfl, rfl, h⟩
  | .fault f, .fault g, h => .inr (.inl ⟨f, g, rfl, rfl, h⟩)
  | .refused a, .refused _, rfl => .inr (.inr ⟨a, rfl, rfl⟩)

theorem completeStep_sameLow {r q : Result} (h : SameLowResult r q) :
    SameLowResult (completeStep r) (completeStep q) := by
  obtain ⟨s, t, rfl, rfl, h⟩ | ⟨f, g, rfl, rfl, h⟩ | ⟨a, rfl, rfl⟩ := h.cases
  · exact h.timerPhase
  · exact h
  · rfl

/-- Related states fetch the same word, so they execute the same instruction. -/
theorem step_sameLow (h : SameLow s t) : SameLowResult (step s) (step t) := by
  have h' : SameLow s.forgotten t.forgotten := h.setDiagnostics rfl
  rw [step, step, h.fetchWord]
  cases decodeWord s.fetchWord with
  | instr i => exact completeStep_sameLow (exec_sameLow i h')
  | unknown op => exact completeStep_sameLow (execUnknown_sameLow op h')

/-! One more step in front of a run, by what that step answers. -/

section
variable {n : Nat} {s t : core.State}

theorem run_succ_of_next (e : core.step s = .next t) : core.run (n + 1) s = core.run n t := by
  rw [Host.Core.run, e]

theorem run_succ_of_fault {f : Fault} (e : core.step s = .fault f) : core.run (n + 1) s = .fault f := by
  rw [Host.Core.run, e]

theorem run_succ_of_refused {a : Refusal} (e : core.step s = .refused a) : core.run (n + 1) s = .refused a := by
  rw [Host.Core.run, e]

end

/-- Runs of related states go on together and stop together. -/
theorem run_sameLow (n : Nat) (h : SameLow s t) : SameLowResult (core.run n s) (core.run n t) := by
  induction n generalizing s t with
  | zero => exact h
  | succ n ih =>
    obtain ⟨s', t', es, et, h'⟩ | ⟨f, g, es, et, h'⟩ | ⟨a, es, et⟩ := (step_sameLow h).cases
    · rw [run_succ_of_next es, run_succ_of_next et]
      exact ih h'
    · rw [run_succ_of_fault es, run_succ_of_fault et]
      exact h'
    · rw [run_succ_of_refused es, run_succ_of_refused et]
      rfl

end Sys2Proof.Machine
end

section
/-! PROOFS. The statements about memory and addresses (spec 20_memory.md). -/

namespace Sys2Proof.Machine

/-- Two bytes as one word, the first as the high byte (R53). -/
theorem wordOfBytes_toNat (hi lo : Byte) : (wordOfBytes hi lo).toNat = hi.toNat * 256 + lo.toNat := by
  rw [wordOfBytes, BitVec.toNat_append, ← Nat.shiftLeft_add_eq_or_of_lt lo.isLt, Nat.shiftLeft_eq]

/-- Settles O59: the step by its parts, any number of steps by induction. -/
theorem upperAddressBitsAreUnobservable : Obligations.UpperAddressBitsAreUnobservable :=
  fun _ _ h => ⟨step_sameLow h, fun n => run_sameLow n h⟩

/-- Settles O6: the fetched word is the two bytes read, each from its own cell. -/
theorem fetchIsBigEndianAndWraps : Obligations.FetchIsBigEndianAndWraps :=
  fun _ => wordOfBytes_toNat _ _

end Sys2Proof.Machine
end

section
/-! PROOFS. The fields of a word and the words of the formats as numbers (spec 30_encoding.md R71): the fields of a
format's word are its arguments, and the format of a word's fields is the word. -/

namespace Sys2Proof.Machine

/-! The fields of a word, as numbers. -/

theorem opFamily_toNat (op : Word) : (opFamily op).toNat = op.toNat / 4096 := by
  rw [opFamily, BitVec.extractLsb'_toNat, Nat.shiftRight_eq_div_pow]
  omega

theorem opX_val (op : Word) : (opX op).val = op.toNat / 256 % 16 := by
  rw [opX, regOf, BitVec.toFin_extractLsb', Fin.val_ofNat, Nat.shiftRight_eq_div_pow]

theorem opY_val (op : Word) : (opY op).val = op.toNat / 16 % 16 := by
  rw [opY, regOf, BitVec.toFin_extractLsb', Fin.val_ofNat, Nat.shiftRight_eq_div_pow]

theorem opN_toNat (op : Word) : (opN op).toNat = op.toNat % 16 := BitVec.extractLsb'_toNat ..

theorem opNN_toNat (op : Word) : (opNN op).toNat = op.toNat % 256 := BitVec.extractLsb'_toNat ..

theorem opNNN_toNat (op : Word) : (opNNN op).toNat = op.toNat % 4096 := BitVec.extractLsb'_toNat ..

/-! The words of the formats, as numbers. -/

theorem toNat_append_eq {m n : Nat} (a : BitVec m) (b : BitVec n) : (a ++ b).toNat = a.toNat * 2 ^ n + b.toNat := by
  rw [BitVec.toNat_append, ← Nat.shiftLeft_add_eq_or_of_lt b.isLt, Nat.shiftLeft_eq]

theorem formatNNN_toNat (f : Nibble) (nnn : Addr) : (formatNNN f nnn).toNat = f.toNat * 4096 + nnn.toNat :=
  toNat_append_eq f nnn

theorem formatXNN_toNat (f : Nibble) (x : Reg) (nn : Byte) :
    (formatXNN f x nn).toNat = f.toNat * 4096 + (x.val * 256 + nn.toNat) := by
  rw [formatXNN, toNat_append_eq, toNat_append_eq]
  rfl

theorem formatXYN_toNat (f : Nibble) (x y : Reg) (n : Nibble) :
    (formatXYN f x y n).toNat = f.toNat * 4096 + (x.val * 256 + (y.val * 16 + n.toNat)) := by
  rw [formatXYN, toNat_append_eq, toNat_append_eq, toNat_append_eq]
  rfl

/-! The fields of a format's word. -/

@[simp] theorem opFamily_formatNNN (f : Nibble) (nnn : Addr) : opFamily (formatNNN f nnn) = f :=
  BitVec.eq_of_toNat_eq (by rw [opFamily_toNat, formatNNN_toNat]; omega)

@[simp] theorem opNNN_formatNNN (f : Nibble) (nnn : Addr) : opNNN (formatNNN f nnn) = nnn :=
  BitVec.eq_of_toNat_eq (by rw [opNNN_toNat, formatNNN_toNat]; omega)

@[simp] theorem opFamily_formatXNN (f : Nibble) (x : Reg) (nn : Byte) : opFamily (formatXNN f x nn) = f :=
  opFamily_formatNNN f (regField x ++ nn)

@[simp] theorem opX_formatXNN (f : Nibble) (x : Reg) (nn : Byte) : opX (formatXNN f x nn) = x :=
  Fin.ext (by rw [opX_val, formatXNN_toNat]; omega)

@[simp] theorem opNN_formatXNN (f : Nibble) (x : Reg) (nn : Byte) : opNN (formatXNN f x nn) = nn :=
  BitVec.eq_of_toNat_eq (by rw [opNN_toNat, formatXNN_toNat]; omega)

@[simp] theorem opFamily_formatXYN (f : Nibble) (x y : Reg) (n : Nibble) : opFamily (formatXYN f x y n) = f :=
  opFamily_formatNNN f (regField x ++ (regField y ++ n : BitVec 8))

@[simp] theorem opX_formatXYN (f : Nibble) (x y : Reg) (n : Nibble) : opX (formatXYN f x y n) = x :=
  opX_formatXNN f x (regField y ++ n)

@[simp] theorem opY_formatXYN (f : Nibble) (x y : Reg) (n : Nibble) : opY (formatXYN f x y n) = y :=
  Fin.ext (by rw [opY_val, formatXYN_toNat]; omega)

@[simp] theorem opN_formatXYN (f : Nibble) (x y : Reg) (n : Nibble) : opN (formatXYN f x y n) = n :=
  BitVec.eq_of_toNat_eq (by rw [opN_toNat, formatXYN_toNat]; omega)

/-! The format of a word's fields: the literal digits are given, the operands are read from the word. -/

theorem formatNNN_fields {op : Word} {f : Nibble} (hf : (opFamily op).toNat = f.toNat) :
    formatNNN f (opNNN op) = op :=
  BitVec.eq_of_toNat_eq (by rw [formatNNN_toNat, ← hf, opFamily_toNat, opNNN_toNat]; omega)

theorem formatXNN_fields {op : Word} {f : Nibble} {nn : Byte} (hf : (opFamily op).toNat = f.toNat)
    (hnn : (opNN op).toNat = nn.toNat) : formatXNN f (opX op) nn = op :=
  BitVec.eq_of_toNat_eq (by rw [formatXNN_toNat, ← hf, ← hnn, opFamily_toNat, opX_val, opNN_toNat]; omega)

theorem formatXYN_fields {op : Word} {f n : Nibble} (hf : (opFamily op).toNat = f.toNat)
    (hn : (opN op).toNat = n.toNat) : formatXYN f (opX op) (opY op) n = op :=
  BitVec.eq_of_toNat_eq (by rw [formatXYN_toNat, ← hf, ← hn, opFamily_toNat, opX_val, opY_val, opN_toNat]; omega)

end Sys2Proof.Machine
end

section
/-! PROOFS. The decoder against the encoder (spec 30_encoding.md R70, R71, R74, R80). -/

namespace Sys2Proof.Machine

/-- The decoder undoes the encoder: family by family, and inside a family by the digits it is selected by (R74). -/
theorem decodeWord_encode (i : Instr) : decodeWord (encode i) = .instr i := by
  cases i
  case op00E0 | op00EE => rfl
  case op1NNN | op2NNN | opANNN | opBNNN | op3XNN | op4XNN | op6XNN | op7XNN | opCXNN | op5XY0 | op9XY0 | opDXYN =>
    simp [encode, decodeWord]
  case op8XY0 | op8XY1 | op8XY2 | op8XY3 | op8XY4 | op8XY5 | op8XY6 | op8XY7 | op8XYE =>
    simp [encode, decodeWord, decode8]
  case opEX9E | opEXA1 => simp [encode, decodeWord, decodeE]
  case opFX07 | opFX0A | opFX15 | opFX18 | opFX1E | opFX29 | opFX33 | opFX55 | opFX65 =>
    simp [encode, decodeWord, decodeF]

/-- What a decoded word stands for is the word: an instruction by its encoding, an unknown opcode by itself. -/
def StandsFor (op : Word) : Decoded → Prop
  | .instr i => encode i = op
  | .unknown w => w = op

theorem decode0_standsFor (op : Word) : StandsFor op (decode0 op) := by
  rw [decode0]
  split_ifs with hcls hret
  · exact hcls.symm
  · exact hret.symm
  · exact rfl

theorem decode8_standsFor {op : Word} (hf : (opFamily op).toNat = 0x8) : StandsFor op (decode8 op) := by
  unfold decode8
  split
  case h_10 => exact rfl
  all_goals next hn => exact formatXYN_fields hf hn

theorem decodeE_standsFor {op : Word} (hf : (opFamily op).toNat = 0xE) : StandsFor op (decodeE op) := by
  unfold decodeE
  split
  case h_3 => exact rfl
  all_goals next hnn => exact formatXNN_fields hf hnn

theorem decodeF_standsFor {op : Word} (hf : (opFamily op).toNat = 0xF) : StandsFor op (decodeF op) := by
  unfold decodeF
  split
  case h_10 => exact rfl
  all_goals next hnn => exact formatXNN_fields hf hnn

/-- Where a row needs a zero last digit, a word with another one is unknown (D22, log 15). -/
theorem ifZeroN_standsFor {op : Word} {i : Instr} (h : opN op = 0#4 → encode i = op) :
    StandsFor op (if opN op = 0#4 then .instr i else .unknown op) := by
  split
  case isTrue hn => exact h hn
  case isFalse => exact rfl

/-- Each family puts the digits it was selected by, and the operands it read, back where they stood (R71, R74). Branch
`h_1` is family 0, `h_16` family F, `h_17` the default that no digit reaches. -/
theorem decodeWord_standsFor (op : Word) : StandsFor op (decodeWord op) := by
  unfold decodeWord
  split
  case h_1 => exact decode0_standsFor op
  case h_2 hf | h_3 hf | h_11 hf | h_12 hf => exact formatNNN_fields hf
  case h_4 hf | h_5 hf | h_7 hf | h_8 hf | h_13 hf => exact formatXNN_fields hf rfl
  case h_6 hf | h_10 hf => exact ifZeroN_standsFor fun hn => formatXYN_fields hf (congrArg BitVec.toNat hn)
  case h_14 hf => exact formatXYN_fields hf rfl
  case h_9 hf => exact decode8_standsFor hf
  case h_15 hf => exact decodeE_standsFor hf
  case h_16 hf => exact decodeF_standsFor hf
  case h_17 => exact rfl

theorem encode_of_decodeWord {op : Word} {i : Instr} (h : decodeWord op = .instr i) : encode i = op := by
  have hop := decodeWord_standsFor op
  rwa [h] at hop

theorem eq_of_decodeWord_unknown {op w : Word} (h : decodeWord op = .unknown w) : w = op := by
  have hop := decodeWord_standsFor op
  rwa [h] at hop

/-- The decoder answers an instruction exactly on that instruction's word. -/
theorem decodeWord_eq_instr_iff {op : Word} {i : Instr} : decodeWord op = .instr i ↔ encode i = op :=
  ⟨encode_of_decodeWord, fun h => h ▸ decodeWord_encode i⟩

/-! Words as two bytes (R70). -/

theorem wordOfBytes_highByte_lowByte (w : Word) : wordOfBytes (highByte w) (lowByte w) = w :=
  BitVec.extractLsb'_append_extractLsb' ..

theorem decodeBytes_encodeBytes (i : Instr) (rest : List Byte) :
    decodeBytes (encodeBytes i ++ rest) = .ok (i, rest) := by
  simp [encodeBytes, decodeBytes, wordOfBytes_highByte_lowByte, decodeWord_encode]

end Sys2Proof.Machine
end

section
/-! PROOFS. The encoder against the masks and matches of the opcode table (spec 30_encoding.md R72). -/

namespace Sys2Proof.Machine

/-! A word that shows a row's literal digits under the row's mask is the row's format with the operands read from the
word (R72). -/

section
variable {op : Word} {f n : Nibble} {nn : Byte}

theorem opFamily_of_masked (h : op &&& 0xF000#16 = formatNNN f 0) : (opFamily op).toNat = f.toNat := by
  have e := Laws.formatNNN_masked (opFamily op) (opNNN op)
  rw [formatNNN_fields rfl, h] at e
  simpa using congrArg (fun w => (opFamily w).toNat) e.symm

theorem formatXNN_of_masked_low (h : op &&& 0xF0FF#16 = formatXNN f 0 nn) : formatXNN f (opX op) nn = op := by
  have e := Laws.formatXNN_masked_low (opFamily op) (opX op) (opNN op)
  rw [formatXNN_fields rfl rfl, h] at e
  have hf : opFamily op = f := by simpa using congrArg opFamily e.symm
  have hnn : opNN op = nn := by simpa using congrArg opNN e.symm
  exact formatXNN_fields (congrArg _ hf) (congrArg _ hnn)

theorem formatXYN_of_masked_low (h : op &&& 0xF00F#16 = formatXYN f 0 0 n) :
    formatXYN f (opX op) (opY op) n = op := by
  have e := Laws.formatXYN_masked_low (opFamily op) (opX op) (opY op) (opN op)
  rw [formatXYN_fields rfl rfl, h] at e
  have hf : opFamily op = f := by simpa using congrArg opFamily e.symm
  have hn : opN op = n := by simpa using congrArg opN e.symm
  exact formatXYN_fields (congrArg _ hf) (congrArg _ hn)

theorem eq_of_masked_full {v : Word} (h : op &&& 0xFFFF#16 = v) : v = op :=
  h.symm.trans BitVec.and_allOnes

end

/-- The word is that of an instruction of the row's pattern. -/
def IsWordOfRow (op : Word) (r : OpcodeRow) : Prop := ∃ i : Instr, i.pattern = r.pattern ∧ encode i = op

/-! A word with a row's literal digits is the row's instruction on the operands the word holds, row by row (R72). -/

theorem rows0to6_isWordOfRow (op : Word) :
    ∀ r ∈ rows0to6, op &&& r.mask = r.value → IsWordOfRow op r := by
  simp only [rows0to6, List.forall_mem_cons]
  exact ⟨fun h => ⟨.op00E0, rfl, eq_of_masked_full h⟩,
    fun h => ⟨.op00EE, rfl, eq_of_masked_full h⟩,
    fun h => ⟨.op1NNN _, rfl, formatNNN_fields (opFamily_of_masked h)⟩,
    fun h => ⟨.op2NNN _, rfl, formatNNN_fields (opFamily_of_masked h)⟩,
    fun h => ⟨.op3XNN _ _, rfl, formatXNN_fields (opFamily_of_masked h) rfl⟩,
    fun h => ⟨.op4XNN _ _, rfl, formatXNN_fields (opFamily_of_masked h) rfl⟩,
    fun h => ⟨.op5XY0 _ _, rfl, formatXYN_of_masked_low h⟩,
    fun h => ⟨.op6XNN _ _, rfl, formatXNN_fields (opFamily_of_masked h) rfl⟩,
    List.forall_mem_nil _⟩

theorem rows7to9_isWordOfRow (op : Word) :
    ∀ r ∈ rows7to9, op &&& r.mask = r.value → IsWordOfRow op r := by
  simp only [rows7to9, List.forall_mem_cons]
  exact ⟨fun h => ⟨.op7XNN _ _, rfl, formatXNN_fields (opFamily_of_masked h) rfl⟩,
    fun h => ⟨.op8XY0 _ _, rfl, formatXYN_of_masked_low h⟩,
    fun h => ⟨.op8XY1 _ _, rfl, formatXYN_of_masked_low h⟩,
    fun h => ⟨.op8XY2 _ _, rfl, formatXYN_of_masked_low h⟩,
    fun h => ⟨.op8XY3 _ _, rfl, formatXYN_of_masked_low h⟩,
    fun h => ⟨.op8XY4 _ _, rfl, formatXYN_of_masked_low h⟩,
    fun h => ⟨.op8XY5 _ _, rfl, formatXYN_of_masked_low h⟩,
    fun h => ⟨.op8XY6 _ _, rfl, formatXYN_of_masked_low h⟩,
    fun h => ⟨.op8XY7 _ _, rfl, formatXYN_of_masked_low h⟩,
    fun h => ⟨.op8XYE _ _, rfl, formatXYN_of_masked_low h⟩,
    fun h => ⟨.op9XY0 _ _, rfl, formatXYN_of_masked_low h⟩,
    List.forall_mem_nil _⟩

theorem rowsAtoEX9E_isWordOfRow (op : Word) :
    ∀ r ∈ rowsAtoEX9E, op &&& r.mask = r.value → IsWordOfRow op r := by
  simp only [rowsAtoEX9E, List.forall_mem_cons]
  exact ⟨fun h => ⟨.opANNN _, rfl, formatNNN_fields (opFamily_of_masked h)⟩,
    fun h => ⟨.opBNNN _, rfl, formatNNN_fields (opFamily_of_masked h)⟩,
    fun h => ⟨.opCXNN _ _, rfl, formatXNN_fields (opFamily_of_masked h) rfl⟩,
    fun h => ⟨.opDXYN _ _ _, rfl, formatXYN_fields (opFamily_of_masked h) rfl⟩,
    fun h => ⟨.opEX9E _, rfl, formatXNN_of_masked_low h⟩,
    fun h => ⟨.opEXA1 _, rfl, formatXNN_of_masked_low h⟩,
    List.forall_mem_nil _⟩

theorem rowsEXA1toF_isWordOfRow (op : Word) :
    ∀ r ∈ rowsEXA1toF, op &&& r.mask = r.value → IsWordOfRow op r := by
  simp only [rowsEXA1toF, List.forall_mem_cons]
  exact ⟨fun h => ⟨.opFX07 _, rfl, formatXNN_of_masked_low h⟩,
    fun h => ⟨.opFX0A _, rfl, formatXNN_of_masked_low h⟩,
    fun h => ⟨.opFX15 _, rfl, formatXNN_of_masked_low h⟩,
    fun h => ⟨.opFX18 _, rfl, formatXNN_of_masked_low h⟩,
    fun h => ⟨.opFX1E _, rfl, formatXNN_of_masked_low h⟩,
    fun h => ⟨.opFX29 _, rfl, formatXNN_of_masked_low h⟩,
    fun h => ⟨.opFX33 _, rfl, formatXNN_of_masked_low h⟩,
    fun h => ⟨.opFX55 _, rfl, formatXNN_of_masked_low h⟩,
    fun h => ⟨.opFX65 _, rfl, formatXNN_of_masked_low h⟩,
    List.forall_mem_nil _⟩

theorem isWordOfRow_of_covers {op : Word} {r : OpcodeRow} (hr : r ∈ opcodeTable) (h : r.covers op = true) :
    IsWordOfRow op r := by
  have hm : op &&& r.mask = r.value := beq_iff_eq.mp h
  simp only [opcodeTable, List.mem_append] at hr
  obtain ((hr | hr) | hr) | hr := hr
  · exact rows0to6_isWordOfRow op r hr hm
  · exact rows7to9_isWordOfRow op r hr hm
  · exact rowsAtoEX9E_isWordOfRow op r hr hm
  · exact rowsEXA1toF_isWordOfRow op r hr hm

/-- Every instruction has its row, which covers its word (R72). -/
theorem rowCoversWord : (i : Instr) → Laws.RowCoversWord.Statement i
  | .op00E0 => Laws.RowCoversWord.op00E0
  | .op00EE => Laws.RowCoversWord.op00EE
  | .op1NNN nnn => Laws.RowCoversWord.op1NNN nnn
  | .op2NNN nnn => Laws.RowCoversWord.op2NNN nnn
  | .op3XNN x nn => Laws.RowCoversWord.op3XNN x nn
  | .op4XNN x nn => Laws.RowCoversWord.op4XNN x nn
  | .op5XY0 x y => Laws.RowCoversWord.op5XY0 x y
  | .op6XNN x nn => Laws.RowCoversWord.op6XNN x nn
  | .op7XNN x nn => Laws.RowCoversWord.op7XNN x nn
  | .op8XY0 x y => Laws.RowCoversWord.op8XY0 x y
  | .op8XY1 x y => Laws.RowCoversWord.op8XY1 x y
  | .op8XY2 x y => Laws.RowCoversWord.op8XY2 x y
  | .op8XY3 x y => Laws.RowCoversWord.op8XY3 x y
  | .op8XY4 x y => Laws.RowCoversWord.op8XY4 x y
  | .op8XY5 x y => Laws.RowCoversWord.op8XY5 x y
  | .op8XY6 x y => Laws.RowCoversWord.op8XY6 x y
  | .op8XY7 x y => Laws.RowCoversWord.op8XY7 x y
  | .op8XYE x y => Laws.RowCoversWord.op8XYE x y
  | .op9XY0 x y => Laws.RowCoversWord.op9XY0 x y
  | .opANNN nnn => Laws.RowCoversWord.opANNN nnn
  | .opBNNN nnn => Laws.RowCoversWord.opBNNN nnn
  | .opCXNN x nn => Laws.RowCoversWord.opCXNN x nn
  | .opDXYN x y n => Laws.RowCoversWord.opDXYN x y n
  | .opEX9E x => Laws.RowCoversWord.opEX9E x
  | .opEXA1 x => Laws.RowCoversWord.opEXA1 x
  | .opFX07 x => Laws.RowCoversWord.opFX07 x
  | .opFX0A x => Laws.RowCoversWord.opFX0A x
  | .opFX15 x => Laws.RowCoversWord.opFX15 x
  | .opFX18 x => Laws.RowCoversWord.opFX18 x
  | .opFX1E x => Laws.RowCoversWord.opFX1E x
  | .opFX29 x => Laws.RowCoversWord.opFX29 x
  | .opFX33 x => Laws.RowCoversWord.opFX33 x
  | .opFX55 x => Laws.RowCoversWord.opFX55 x
  | .opFX65 x => Laws.RowCoversWord.opFX65 x

/-- No pattern stands in two rows of the table. -/
theorem opcodeTable_pattern_nodup : (opcodeTable.map OpcodeRow.pattern).Nodup := by decide

theorem covers_of_isWordOfRow {op : Word} {r : OpcodeRow} (hr : r ∈ opcodeTable) (h : IsWordOfRow op r) :
    r.covers op = true := by
  obtain ⟨i, hi, rfl⟩ := h
  obtain ⟨r', hr', hp, hc⟩ := rowCoversWord i
  obtain rfl := List.inj_on_of_nodup_map opcodeTable_pattern_nodup hr' hr (hp.trans hi)
  exact hc

end Sys2Proof.Machine
end

section
/-! PROOFS. The unknown words by their digits (spec 30_encoding.md R80). -/

namespace Sys2Proof.Machine

variable {op : Word}

theorem eq_iff_of_family0 {v : Word} (hf : op.toNat / 4096 = 0x0) : op = v ↔ op.toNat % 4096 = v.toNat := by
  rw [← BitVec.toNat_inj]
  omega

theorem decode0_eq_unknown_iff (hf : op.toNat / 4096 = 0x0) :
    decode0 op = .unknown op ↔ op.toNat % 4096 ≠ 0x0E0 ∧ op.toNat % 4096 ≠ 0x0EE := by
  simp only [decode0, eq_iff_of_family0 hf]
  split_ifs <;> simp_all

theorem decode8_eq_unknown_iff :
    decode8 op = .unknown op ↔ op.toNat % 16 ∈ [0x8, 0x9, 0xA, 0xB, 0xC, 0xD, 0xF] := by
  have hlt : op.toNat % 16 < 16 := Nat.mod_lt _ (by decide)
  rw [decode8, opN_toNat]
  split
  case h_10 =>
    simp only [imp_false, true_iff, List.mem_cons, List.not_mem_nil, or_false] at *
    omega
  all_goals next hn => simp [hn]

theorem decodeE_eq_unknown_iff : decodeE op = .unknown op ↔ op.toNat % 256 ∉ [0x9E, 0xA1] := by
  rw [decodeE, opNN_toNat]
  split
  case h_3 => simp_all
  all_goals next hnn => simp [hnn]

theorem decodeF_eq_unknown_iff : decodeF op = .unknown op ↔
    op.toNat % 256 ∉ [0x07, 0x0A, 0x15, 0x18, 0x1E, 0x29, 0x33, 0x55, 0x65] := by
  rw [decodeF, opNN_toNat]
  split
  case h_10 => simp_all
  all_goals next hnn => simp [hnn]

/-- The last digit that `5XY0` and `9XY0` need (D22, log 15). -/
theorem opN_eq_zero_iff : opN op = 0#4 ↔ op.toNat % 16 = 0 := by
  rw [← BitVec.toNat_inj, opN_toNat]
  rfl

end Sys2Proof.Machine
end

section
/-! PROOFS. The statements about the encoding (spec 30_encoding.md), each from the lemmas above. -/

namespace Sys2Proof.Machine

/-- Settles O1: the decoder undoes the encoder, and a word is its two bytes put together again. -/
theorem decodeOfEncodeIsTheInstruction : Obligations.DecodeOfEncodeIsTheInstruction :=
  fun i => ⟨decodeWord_encode i,
    by rw [← wordOfBytes_toNat, wordOfBytes_highByte_lowByte],
    decodeBytes_encodeBytes i⟩

/-- Settles O2: whatever the decoder answers stands for the word. -/
theorem encodeOfDecodeIsTheWord : Obligations.EncodeOfDecodeIsTheWord :=
  fun _ => ⟨fun _ => encode_of_decodeWord, fun _ => eq_of_decodeWord_unknown⟩

/-- Settles O3: both sides say that the word encodes an instruction of the row's pattern. -/
theorem decoderAgreesWithOpcodeTable : Obligations.DecoderAgreesWithOpcodeTable := by
  intro op r hr
  simp only [decodeWord_eq_instr_iff, and_comm (a := encode _ = op)]
  exact ⟨isWordOfRow_of_covers hr, covers_of_isWordOfRow hr⟩

/-- Settles O4, by the branches of the decoder. -/
theorem unknownWordsAreTheseByFamily : Obligations.UnknownWordsAreTheseByFamily := by
  intro op
  have hlt : op.toNat / 4096 < 16 := Nat.div_lt_of_lt_mul op.isLt
  rw [decodeWord, opFamily_toNat]
  split
  case h_1 hf => simp [hf, decode0_eq_unknown_iff hf]
  case h_6 hf | h_10 hf => simp [hf, opN_eq_zero_iff]
  case h_9 hf => simp [hf, decode8_eq_unknown_iff]
  case h_15 hf => simp [hf, decodeE_eq_unknown_iff]
  case h_16 hf => simp [hf, decodeF_eq_unknown_iff]
  case h_17 =>
    simp only [imp_false] at *
    exfalso
    omega
  all_goals next hf => simp [hf]

/-- Settles O5: seven words are the encodings of what they decode to; the eighth needs a zero last digit. -/
theorem writtenOutWordsDecode : Obligations.WrittenOutWordsDecode :=
  ⟨decodeWord_encode .op00E0, decodeWord_encode (.op2NNN 0xABC#12), decodeWord_encode (.op3XNN 10 0x42#8),
    decodeWord_encode (.op8XYE 1 2), decodeWord_encode (.opDXYN 0 1 5#4), decodeWord_encode (.opEX9E 1),
    decodeWord_encode (.opFX65 15), rfl⟩

end Sys2Proof.Machine
end

section
/-! PROOFS. A step by what it fetched: the execute phase it runs, the timer phase after it, and the unknown opcode in
both modes (spec 40_step_cycle.md). -/

namespace Sys2Proof.Machine

/-- Two bytes that decode to an instruction are the bytes of a word that does (R53, R70). -/
theorem decodeWord_of_decodeBytes {hi lo : Byte} {i : Instr} {rest : List Byte}
    (h : decodeBytes [hi, lo] = .ok (i, rest)) : decodeWord (wordOfBytes hi lo) = .instr i := by
  rw [decodeBytes] at h
  cases hw : decodeWord (wordOfBytes hi lo) <;> rw [hw] at h <;> cases h
  rfl

theorem step_of_fetches {s : State} {i : Instr} (h : Fetches s i) : step s = completeStep (exec i s.forgotten) := by
  rw [step, show decodeWord s.fetchWord = .instr i from h]

theorem step_of_unknown {s : State} {op : Word} (h : decodeWord s.fetchWord = .unknown op) :
    step s = completeStep (execUnknown op s.forgotten) := by
  rw [step, h]

/-- The beep flag stays set, or is set by `sound` going from 1 to 0 (R30, R34, R94). -/
theorem State.timerPhase_beep_iff (s : State) : s.timerPhase.beep = true ↔ s.beep = true ∨ s.sound.toNat = 1 := by
  simp [← BitVec.toNat_inj]

/-- The timer phase changes the timers and the beep flag only (R94). -/
theorem State.timerPhase_sameExcept (s : State) : SameExcept [.delay, .sound, .beep] s s.timerPhase := by
  intro p hp
  cases p
  case delay | sound | beep => simp at hp
  case memory | regs => exact fun _ => rfl
  all_goals rfl

/-- The state a permissive unknown opcode leaves: one event, `pc` two on, then the timer phase (R95). -/
def State.afterUnknown (s : State) (op : Word) : State :=
  ((s.forgotten.emit (.unknownOpcode s.pc op)).advance).timerPhase

theorem State.afterUnknown_sameExcept (s : State) (op : Word) :
    SameExcept [.pc, .delay, .sound, .beep, .diagnostics] s (s.afterUnknown op) := by
  intro p hp
  cases p
  case pc | delay | sound | beep | diagnostics => simp at hp
  case memory | regs => exact fun _ => rfl
  all_goals rfl

/-- An unknown opcode under each mode (R95). -/
theorem step_unknown_cases {s : State} {op : Word} (h : decodeWord s.fetchWord = .unknown op) :
    (s.cfg.illegalMode = .permissive ∧ step s = .next (s.afterUnknown op)) ∨
    (s.cfg.illegalMode = .strict ∧ step s = .fault (.illegalOpcode s.pc op)) := by
  rw [step_of_unknown h]
  obtain ⟨hm, e⟩ | ⟨hm, e⟩ := execUnknown_cases op s.forgotten <;> rw [e]
  · exact .inl ⟨hm, rfl⟩
  · exact .inr ⟨hm, rfl⟩

end Sys2Proof.Machine
end

section
/-! PROOFS. The statements about the step (spec 40_step_cycle.md), each from the lemmas above. -/

namespace Sys2Proof.Machine

/-- Settles O7: the step is the end of the fetched instruction's execute phase, which ticks or passes the fault on. -/
theorem stepRunsTheDecodedInstruction : Obligations.StepRunsTheDecodedInstruction := by
  intro s i rest h
  have hstep := step_of_fetches (s := s) (decodeWord_of_decodeBytes h)
  refine ⟨fun u hu => ⟨u.timerPhase, ?_, ?_, ?_, u.timerPhase_beep_iff, u.timerPhase_sameExcept⟩, fun f hf => ?_⟩
  · exact hstep.trans (completeStep_next.mpr ⟨u, hu, rfl⟩)
  · exact tickDelay_toNat u.delay
  · exact tickDelay_toNat u.sound
  · exact hstep.trans (completeStep_fault.mpr hf)

/-- Settles O8, by the mode of the configuration. -/
theorem unknownOpcodeIsNoOpOrFault : Obligations.UnknownOpcodeIsNoOpOrFault := by
  intro s h
  obtain ⟨hm, e⟩ | ⟨hm, e⟩ := step_unknown_cases h
  · exact ⟨fun _ => ⟨_, e, .of_add rfl, rfl, tickDelay_toNat _, tickDelay_toNat _, s.afterUnknown_sameExcept _⟩,
      fun hs => nomatch hm.symm.trans hs⟩
  · exact ⟨fun hp => (nomatch hm.symm.trans hp), fun _ => e⟩

end Sys2Proof.Machine
end

section
/-! PROOFS. Frames as relations between states: what they compose to, and the frames of the two updates that control
transfer is made of (spec 41_flow.md R100). -/

namespace Sys2Proof.Machine

theorem Part.same_trans {p : Part} {s t u : State} (h : p.same s t) (h' : p.same t u) : p.same s u := by
  cases p
  case memory | regs => exact fun a => (h' a).trans (h a)
  all_goals exact Eq.trans h' h

section
variable {changed wider : List Part} {s t u : State}

theorem SameExcept.trans (h : SameExcept changed s t) (h' : SameExcept changed t u) : SameExcept changed s u :=
  fun p hp => Part.same_trans (h p hp) (h' p hp)

theorem SameExcept.mono (h : SameExcept changed s t) (hsub : changed ⊆ wider) : SameExcept wider s t :=
  fun p hp => h p fun hc => hp (hsub hc)

/-- A part that may have changed and did not can be left off the list. -/
theorem SameExcept.remove {p : Part} (h : SameExcept wider s t) (hp : p.same s t)
    (hsub : wider ⊆ p :: changed) : SameExcept changed s t := by
  intro q hq
  by_cases e : q = p
  · exact e ▸ hp
  · exact h.mono hsub q (by simp [e, hq])

end

theorem State.setPc_sameExcept (s : State) (p : Word) : SameExcept [.pc] s (s.setPc p) := by
  intro q hq
  cases q
  case pc => simp at hq
  case memory | regs => exact fun _ => rfl
  all_goals rfl

theorem State.setStack_sameExcept (s : State) (st : Vector Word 16) (n : Fin 17) :
    SameExcept [.stackEntries, .stackDepth] s (s.setStack st n) := by
  intro q hq
  cases q
  case stackEntries | stackDepth => simp at hq
  case memory | regs => exact fun _ => rfl
  all_goals rfl

/-- A push or a pop followed by a jump changes the stack and `pc` only. -/
theorem State.setStack_setPc_sameExcept (s : State) (st : Vector Word 16) (n : Fin 17) (p : Word) :
    SameExcept [.pc, .stackEntries, .stackDepth] s ((s.setStack st n).setPc p) :=
  ((s.setStack_sameExcept st n).mono (by simp)).trans (((s.setStack st n).setPc_sameExcept p).mono (by simp))

end Sys2Proof.Machine
end

section
/-! PROOFS. Jumps and skips as effects on `pc`, and runs that an invariant keeps safe (spec 41_flow.md R102 to R108,
40_step_cycle.md R98). -/

namespace Sys2Proof.Machine

theorem onlyMovesPc_of_setPc {i : Instr} {s : State} {p : Word} (h : exec i s = .next (s.setPc p)) :
    OnlyMovesPc i s p.toNat :=
  ⟨_, h, rfl, s.setPc_sameExcept p⟩

/-- An instruction whose meaning is a skip on `b` skips when `b` holds (R100, R104). -/
theorem skipsWhen_of_skipIf {i : Instr} {s : State} {b : Bool} {c : Prop} (h : exec i s = .next (s.skipIf b))
    (hb : b = true ↔ c) : SkipsWhen i s c := by
  have hadd (n : Nat) : (s.pc + BitVec.ofNat 16 n).toNat = (s.pc.toNat + n) % 65536 := by simp
  constructor
  · intro hc
    obtain rfl := hb.mpr hc
    exact hadd 4 ▸ onlyMovesPc_of_setPc h
  · intro hc
    obtain rfl := Bool.eq_false_iff.mpr fun e => hc (hb.mp e)
    exact hadd 2 ▸ onlyMovesPc_of_setPc h

/-- What every step from a state of `P` completes and keeps makes every number of steps safe. -/
theorem safeFor_of_invariant {P : State → Prop} (hstep : ∀ s, P s → ∃ t, step s = .next t ∧ P t) (n : Nat) :
    ∀ s, P s → SafeFor n s := by
  induction n with
  | zero => exact fun _ _ => trivial
  | succ n ih =>
    intro s hs
    obtain ⟨t, hnext, ht⟩ := hstep s hs
    exact ⟨t, hnext, ih t ht⟩

/-- A fetch sees memory and `pc` only (R53). -/
theorem State.fetchWord_congr {s t : State} (hmem : Part.memory.same s t) (hpc : t.pc = s.pc) :
    t.fetchWord = s.fetchWord := by
  have hread (a : Nat) : t.memRead a = s.memRead a := hmem (cellOf a)
  rw [State.fetchWord, State.fetchWord, hpc, hread, hread]

/-- The core stands at a `1NNN` that targets itself. -/
def AtSelfJump (nnn : Addr) (s : State) : Prop := s.pc.toNat = nnn.toNat ∧ Fetches s (.op1NNN nnn)

/-- One step at a self-jump completes and stays there: the jump and the timers leave memory alone (R102). -/
theorem AtSelfJump.step_stays {nnn : Addr} {s : State} (h : AtSelfJump nnn s) :
    ∃ t, step s = .next t ∧ AtSelfJump nnn t := by
  obtain ⟨hpc, hfetch⟩ := h
  have hzext : nnn.zext = s.pc := BitVec.eq_of_toNat_eq ((Addr.zext_toNat nnn).trans hpc.symm)
  have hkept : (s.forgotten.setPc nnn.zext).timerPhase.fetchWord = s.fetchWord :=
    State.fetchWord_congr (fun _ => rfl) hzext
  exact ⟨_, step_of_fetches hfetch, Addr.zext_toNat nnn, (congrArg decodeWord hkept).trans hfetch⟩

end Sys2Proof.Machine
end

section
/-! PROOFS. The statements about control transfer (spec 41_flow.md), each from the lemmas above. -/

namespace Sys2Proof.Machine

/-- Settles O9, by whether the pop underflows; a pop moves the depth and keeps the entries. -/
theorem returnPopsAndAddsTwo : Obligations.ReturnPopsAndAddsTwo := by
  intro s
  obtain ⟨h0, e⟩ | ⟨m, hm, hsp, e⟩ := s.pop_cases fun v t => .next (t.setPc (v + 2#16))
  · exact ⟨fun _ => e, fun n _ hn => by omega⟩
  · refine ⟨fun h0 => by omega, fun n h hn => ?_⟩
    obtain rfl : m = n := by omega
    exact ⟨_, e, rfl, BitVec.toNat_add _ _,
      (s.setStack_setPc_sameExcept s.stack _ _).remove (p := .stackEntries) rfl (by simp)⟩

/-- Settles O10: the meaning is one write of `pc`. -/
theorem jumpSetsPc : Obligations.JumpSetsPc :=
  fun nnn _ => Addr.zext_toNat nnn ▸ onlyMovesPc_of_setPc rfl

/-- Settles O11, by whether the push overflows. -/
theorem callPushesItsOwnAddress : Obligations.CallPushesItsOwnAddress := by
  intro nnn s
  obtain ⟨hfull, e⟩ | ⟨hroom, e⟩ := s.push_cases s.pc fun t => .next (t.setPc nnn.zext)
  · exact ⟨fun _ => e, fun h => by omega⟩
  · exact ⟨fun h => by omega, fun h => ⟨_, e, rfl, Vector.getElem_set_self h,
      fun j hj hne => Vector.getElem_set_ne h hj hne.symm, Addr.zext_toNat nnn,
      s.setStack_setPc_sameExcept _ _ _⟩⟩

/-- Settles O12: each meaning is a skip on the Boolean form of its condition. -/
theorem skipsFollowTheirConditions : Obligations.SkipsFollowTheirConditions :=
  fun _ _ _ _ => ⟨skipsWhen_of_skipIf rfl beq_iff_eq, skipsWhen_of_skipIf rfl bne_iff_ne,
    skipsWhen_of_skipIf rfl beq_iff_eq, skipsWhen_of_skipIf rfl bne_iff_ne⟩

/-- Settles O13: the meaning is one write of `pc`, and the sum does not wrap. -/
theorem offsetJumpAddsV0 : Obligations.OffsetJumpAddsV0 :=
  fun nnn s => s.offsetTarget_toNat nnn ▸ onlyMovesPc_of_setPc rfl

/-- Settles O14: the return pops the entry the call pushed, the call's own address (O9 after O11). -/
theorem callThenReturnComesBack : Obligations.CallThenReturnComesBack := by
  intro nnn s hroom
  obtain ⟨t, hcall, hdepth, hpushed, hkept, -, hframe⟩ := (callPushesItsOwnAddress nnn s).2 hroom
  obtain ⟨u, hret, hdepth', hpc, hframe'⟩ := (returnPopsAndAddsTwo t).2 s.sp.val hroom hdepth
  have hstack : u.stack = t.stack := hframe' .stackEntries (by simp)
  refine ⟨t, u, hcall, hret, ?_, fun j hj hlt => ?_, ?_⟩
  · rw [PcPlus, hpc, hpushed]
  · rw [hstack, hkept j hj hlt.ne]
  · exact (hframe.trans (hframe'.mono (by simp))).remove (p := .stackDepth) (Fin.ext hdepth') (by simp)

/-- Settles O16: a step at a self-jump stays at it. -/
theorem jumpToItselfRunsForEver : Obligations.JumpToItselfRunsForEver :=
  fun n nnn s hpc hfetch => safeFor_of_invariant (P := AtSelfJump nnn) (fun _ h => h.step_stays) n s ⟨hpc, hfetch⟩

end Sys2Proof.Machine
end

section
/-! PROOFS. The shapes of effects that the register instructions have: one register write, or a flag and then a result,
followed by the default advance (spec 42_alu.md R110). -/

namespace Sys2Proof.Machine

theorem State.setReg_sameExcept (s : State) (x : Reg) (b : Byte) : SameExcept [.regs] s (s.setReg x b) := by
  intro p hp
  cases p
  case regs => simp at hp
  case memory => exact fun _ => rfl
  all_goals rfl

theorem State.setRandom_sameExcept (s : State) (r : RandomSource) : SameExcept [.random] s (s.setRandom r) := by
  intro p hp
  cases p
  case random => simp at hp
  case memory | regs => exact fun _ => rfl
  all_goals rfl

theorem State.setFlagThen_sameExcept (s : State) (f : Byte) (x : Reg) (b : Byte) :
    SameExcept [.regs] s (s.setFlagThen f x b) :=
  (s.setReg_sameExcept VF f).trans (State.setReg_sameExcept _ x b)

/-- The default advance adds `pc` to what may have changed (R93). -/
theorem SameExcept.advance {changed : List Part} {s t : State} (h : SameExcept changed s t) :
    SameExcept (.pc :: changed) s t.advance :=
  (h.mono (by simp)).trans ((t.setPc_sameExcept _).mono (by simp))

theorem writesOneReg_of_setReg {i : Instr} {s : State} {x : Reg} {b : Byte} {v : Nat}
    (h : exec i s = .next (s.setReg x b).advance) (hv : b.toNat = v) : WritesOneReg i s x v := by
  refine ⟨_, h, ?_, fun r hr => ?_, .of_add rfl, (s.setReg_sameExcept x b).advance⟩
  · simpa using hv
  · exact s.setReg_reg_ne x r b hr

theorem writesFlagThenReg_of_setFlagThen {i : Instr} {s : State} {x : Reg} {f b : Byte} {flag v : Nat}
    (h : exec i s = .next (s.setFlagThen f x b).advance) (hf : f.toNat = flag) (hv : b.toNat = v) :
    WritesFlagThenReg i s x flag v := by
  refine ⟨_, h, ?_, fun hx => ?_, fun r hrx hrf => ?_, .of_add rfl, (s.setFlagThen_sameExcept f x b).advance⟩
  · simpa using hv
  · simpa [State.setFlagThen_reg, hx.symm] using hf
  · simp [State.setFlagThen_reg, hrx, hrf]

end Sys2Proof.Machine
end

section
/-! PROOFS. The results of the arithmetic instructions as numbers, and what a draw from the random-byte source delivers
(spec 42_alu.md R117 to R122). -/

namespace Sys2Proof.Machine

theorem Byte.sub_toNat (a b : Byte) : (a - b).toNat = (a.toNat + 256 - b.toNat) % 256 := by
  have hb : b.toNat < 256 := b.isLt
  rw [BitVec.toNat_sub]
  omega

theorem Byte.ushiftRight_one_toNat (v : Byte) : (v >>> 1).toNat = v.toNat / 2 :=
  Nat.shiftRight_one v.toNat

theorem Byte.shiftLeft_one_toNat (v : Byte) : (v <<< 1).toNat = v.toNat * 2 % 256 := by
  rw [BitVec.toNat_shiftLeft, Nat.shiftLeft_eq]

theorem RandomSource.peek_of_injected {r : RandomSource} {c : Byte} {rest : List Byte} (h : r.injected = c :: rest) :
    r.peek = c := by
  rw [RandomSource.peek, h]

end Sys2Proof.Machine
end

section
/-! PROOFS. The statements about register load, arithmetic, logic, shift and random (spec 42_alu.md), each from the
lemmas above. -/

namespace Sys2Proof.Machine

/-- Settles O17: each meaning is one register write. -/
theorem loadsAndImmediateAdd : Obligations.LoadsAndImmediateAdd :=
  fun _ _ _ _ => ⟨writesOneReg_of_setReg rfl rfl, writesOneReg_of_setReg rfl (BitVec.toNat_add _ _),
    writesOneReg_of_setReg rfl rfl⟩

/-- Settles O18: each meaning is one register write, and the bitwise operations on bytes are those on numbers. -/
theorem logicLeavesFlagAlone : Obligations.LogicLeavesFlagAlone :=
  fun _ _ _ => ⟨writesOneReg_of_setReg rfl (BitVec.toNat_or _ _), writesOneReg_of_setReg rfl (BitVec.toNat_and _ _),
    writesOneReg_of_setReg rfl (BitVec.toNat_xor _ _)⟩

/-- Settles O19: the carry, then the sum. -/
theorem addSetsCarryThenSum : Obligations.AddSetsCarryThenSum :=
  fun _ _ _ => writesFlagThenReg_of_setFlagThen rfl (carryFlag_toNat _ _) (BitVec.toNat_add _ _)

/-- Settles O20: the not-borrow, then the difference, with the operands either way round. -/
theorem subtractionsSetNotBorrow : Obligations.SubtractionsSetNotBorrow :=
  fun _ _ _ => ⟨writesFlagThenReg_of_setFlagThen rfl (notBorrowFlag_toNat _ _) (Byte.sub_toNat _ _),
    writesFlagThenReg_of_setFlagThen rfl (notBorrowFlag_toNat _ _) (Byte.sub_toNat _ _)⟩

/-- Settles O21: the lost bit, then the half. -/
theorem shiftRightReadsVy : Obligations.ShiftRightReadsVy :=
  fun _ _ _ => writesFlagThenReg_of_setFlagThen rfl (shiftOutLow_toNat _) (Byte.ushiftRight_one_toNat _)

/-- Settles O22: `V[Y]` is written last with the value `V[X]` already has, so both hold it even where one is `VF`. -/
theorem shiftLeftWritesBoth : Obligations.ShiftLeftWritesBoth := by
  intro x y s
  refine ⟨_, rfl, ?_, ?_, fun hx hy => ?_, fun r hrx hry hrf => ?_, .of_add rfl,
    ((s.setFlagThen_sameExcept _ x _).trans (State.setReg_sameExcept _ y _)).advance⟩
  · rw [← Byte.shiftLeft_one_toNat]
    simp [State.setReg_reg]
  · rw [← Byte.shiftLeft_one_toNat]
    simp
  · simp [State.setReg_reg, State.setFlagThen_reg, hx.symm, hy.symm, shiftOutHigh_toNat]
  · simp [State.setReg_reg, State.setFlagThen_reg, hrx, hry, hrf]

/-- Settles O23: the byte is the one the source delivers next. -/
theorem randomMasksOneDrawnByte : Obligations.RandomMasksOneDrawnByte := by
  intro x nn s
  refine ⟨s.random.peek, _, rfl, ?_, fun c rest h => ?_, rfl, rfl, fun r hr => ?_, .of_add rfl,
    (((s.setRandom_sameExcept _).mono (by simp)).trans ((State.setReg_sameExcept _ x _).mono (by simp))).advance⟩
  · simp
  · exact RandomSource.peek_of_injected h
  · exact (s.setRandom _).setReg_reg_ne x r _ hr

end Sys2Proof.Machine
end

section
/-! PROOFS. The shape of effect that the index instructions have: one write of `I`, followed by the default advance
(spec 43_index_memory.md R126 to R128), and what they write as numbers. -/

namespace Sys2Proof.Machine

theorem State.setI_sameExcept (s : State) (i : Word) : SameExcept [.index] s (s.setI i) := by
  intro p hp
  cases p
  case index => simp at hp
  case memory | regs => exact fun _ => rfl
  all_goals rfl

theorem writesIndex_of_setI {i : Instr} {s : State} {w : Word} {v : Nat}
    (h : exec i s = .next (s.setI w).advance) (hv : w.toNat = v) : WritesIndex i s v :=
  ⟨_, h, hv, .of_add rfl, (s.setI_sameExcept w).advance⟩

theorem Byte.zext_toNat (b : Byte) : b.zext.toNat = b.toNat :=
  BitVec.toNat_setWidth_of_le (by decide)

/-- Five times a byte is at most 1275, so the product does not wrap (R128). -/
theorem Byte.zext_mul_five_toNat (b : Byte) : (b.zext * 5#16).toNat = b.toNat * 5 := by
  have hb : b.toNat < 256 := b.isLt
  rw [BitVec.toNat_mul, Byte.zext_toNat]
  exact Nat.mod_eq_of_lt (by simp; omega)

/-- `I` after a block of registers has been moved (R130, R131). -/
theorem State.advanceI_blockSize_toNat (s : State) (x : Reg) :
    (s.advanceI (blockSize x)).I.toNat = (s.I.toNat + x.val + 1) % 65536 := by
  simp [State.advanceI, blockSize, Nat.add_assoc]

/-- Growing `I` adds `I` to what may have changed (R125). -/
theorem SameExcept.advanceI {changed : List Part} {s t : State} (h : SameExcept changed s t) (n : Nat) :
    SameExcept (.index :: changed) s (t.advanceI n) :=
  (h.mono (by simp)).trans ((t.setI_sameExcept _).mono (by simp))

end Sys2Proof.Machine
end

section
/-! PROOFS. What a sequence of stores from `I` upward leaves behind, in the terms of `StoredAtIndex`, and the frames of
stores and block loads (spec 43_index_memory.md R129 to R131; 20_memory.md R54). -/

namespace Sys2Proof.Machine

theorem StoresOnly.sameExcept {s t : State} (h : StoresOnly s t) : SameExcept [.memory, .diagnostics] s t := by
  intro p hp
  cases p
  case memory | diagnostics => simp at hp
  case regs => exact h.reg
  case index => exact h.I
  case pc => exact h.pc
  case stackEntries => exact h.stack
  case stackDepth => exact h.sp
  case delay => exact h.delay
  case sound => exact h.sound
  case keypad => exact h.keypad
  case display => exact h.fb
  case redraw => exact h.redraw
  case beep => exact h.beep
  case config => exact h.cfg
  case random => exact h.random

theorem State.setV_sameExcept (s : State) (v : Vector Byte 16) : SameExcept [.regs] s (s.setV v) := by
  intro p hp
  cases p
  case regs => simp at hp
  case memory => exact fun _ => rfl
  all_goals rfl

/-- The events of stores aimed at `addrs` are those of the cells below 0x200 among them, in order (R54). -/
theorem flatMap_reservedEvents (pc : Word) (addrs : List Nat) : addrs.flatMap (reservedEvents pc) =
    ((addrs.map cellOf).filter (· < 0x200)).map fun a => .reservedWrite pc (BitVec.ofNat 12 a) := by
  induction addrs with
  | nil => rfl
  | cons a as ih =>
    rw [List.flatMap_cons, ih, reservedEvents]
    by_cases ha : cellOf a < 0x200 <;> simp [ha]

/-- At most 4096 bytes stored from `I` upward do not overwrite one another, so each is found where it was aimed. -/
theorem State.storeBytes_storedAtIndex (s : State) (bytes : List Byte) (hwf : s.memWf = true)
    (hlen : bytes.length ≤ 4096) : StoredAtIndex bytes s (s.storeBytes (s.indexAddr 0) bytes) := by
  refine ⟨s.storeBytes_read s.I.toNat bytes hwf hlen, fun a ha => s.storeBytes_read_other s.I.toNat bytes ha, ?_⟩
  rw [State.storeBytes_diagnostics, flatMap_reservedEvents, List.range'_eq_map_range, List.map_map]
  rfl

/-- What was stored is still there after changes that leave memory and the events alone. -/
theorem StoredAtIndex.of_sameExcept {bytes : List Byte} {s t u : State} {changed : List Part}
    (h : StoredAtIndex bytes s t) (hu : SameExcept changed t u) (hmem : .memory ∉ changed)
    (hdiag : .diagnostics ∉ changed) : StoredAtIndex bytes s u := by
  obtain ⟨hstored, hother, hevents⟩ := h
  have hread : ∀ a, u.byteAt a = t.byteAt a := hu .memory hmem
  exact ⟨fun k hk hge => (hread _).trans (hstored k hk hge), fun a ha => (hread a).trans (hother a ha),
    (hu .diagnostics hdiag).trans hevents⟩

/-- A register of the stored block, read back from its cell (R130). -/
theorem StoredAtIndex.byteAt_registerBlock {x r : Reg} {s t : State} (h : StoredAtIndex (s.registerBlock x) s t)
    (hr : r ≤ x) (hge : 0x200 ≤ (s.I.toNat + r.val) % 4096) :
    t.byteAt ((s.I.toNat + r.val) % 4096) = s.reg r := by
  obtain ⟨hstored, -, -⟩ := h
  have hlen : r.val < (s.registerBlock x).length := by
    rw [State.registerBlock_length]
    exact Nat.lt_succ_of_le hr
  exact (hstored r.val hlen hge).trans (s.registerBlock_get x r.val hlen)

end Sys2Proof.Machine
end

section
/-! PROOFS. The statements about the index register and memory (spec 43_index_memory.md), each from the lemmas above. -/

namespace Sys2Proof.Machine

/-- Settles O25: each meaning is one write of `I`. -/
theorem indexLoadsAddressOrGlyph : Obligations.IndexLoadsAddressOrGlyph :=
  fun nnn _ _ => ⟨writesIndex_of_setI rfl (Addr.zext_toNat nnn), writesIndex_of_setI rfl (Byte.zext_mul_five_toNat _)⟩

/-- Settles O26: the meaning is one write of `I`, with the sum of words. -/
theorem indexAddWrapsWithoutFlag : Obligations.IndexAddWrapsWithoutFlag :=
  fun x s => writesIndex_of_setI rfl (by rw [BitVec.toNat_add, Byte.zext_toNat])

/-- Settles O27: three stores from `I` upward, then the default advance. -/
theorem decimalDigitsAreStored : Obligations.DecimalDigitsAreStored := by
  intro x s hwf
  have hstored := s.storeBytes_storedAtIndex (decimalDigits (s.reg x)) hwf (by simp [decimalDigits])
  have honly := s.storeBytes_only (s.indexAddr 0) (decimalDigits (s.reg x))
  exact ⟨_, rfl, hstored.of_sameExcept (State.setPc_sameExcept _ _) (by decide) (by decide),
    .of_add (exec_advances (i := .opFX33 x) rfl rfl), honly.sameExcept.advance⟩

/-- Settles O28: the stores of the block, then `I` grows, then the default advance. -/
theorem registerBlockIsStored : Obligations.RegisterBlockIsStored := by
  intro x s hwf
  have hstored := s.storeBytes_storedAtIndex (s.registerBlock x) hwf (by simp; omega)
  have honly := s.storeBytes_only (s.indexAddr 0) (s.registerBlock x)
  refine ⟨_, rfl, hstored.of_sameExcept (State.setI_sameExcept _ _).advance (by decide) (by decide), ?_,
    .of_add (exec_advances (i := .opFX55 x) rfl rfl), (honly.sameExcept.advanceI _).advance⟩
  rw [← honly.I]
  exact State.advanceI_blockSize_toNat _ x

/-- Settles O29: the block is read before anything is written, then `I` grows, then the default advance. -/
theorem registerBlockIsLoaded : Obligations.RegisterBlockIsLoaded := by
  intro x s
  refine ⟨_, rfl, fun r hr => (s.loadedBlock_get x r).trans (if_pos hr), fun r hr => ?_,
    (s.setV _).advanceI_blockSize_toNat x, .of_add (exec_advances (i := .opFX65 x) rfl rfl),
    ((s.setV_sameExcept _).advanceI _).advance.mono (by simp)⟩
  simp [State.advanceI, s.setV_loadedBlock_reg_of_lt hr]

/-- Settles O30: in the program region no store of the block is suppressed, so every register is found in its cell, and
the load reads exactly these cells. -/
theorem storeThenLoadRestoresRegisters : Obligations.StoreThenLoadRestoresRegisters := by
  intro x s hwf hlow hhigh
  obtain ⟨t, ht, hstored, htI, -, -⟩ := registerBlockIsStored x s hwf
  refine ⟨t, ht, htI, fun u huI hkept => ?_⟩
  obtain ⟨w, hw, hloaded, -, hwI, -, -⟩ := registerBlockIsLoaded x u
  rw [huI] at hloaded hwI
  refine ⟨w, hw, fun r hr => ?_, BitVec.eq_of_toNat_eq (hwI.trans htI.symm)⟩
  have hrx : r.val ≤ x.val := hr
  calc w.reg r = u.byteAt ((s.I.toNat + r.val) % 4096) := hloaded r hr
    _ = t.byteAt ((s.I.toNat + r.val) % 4096) := hkept r.val hrx
    _ = s.reg r := StoredAtIndex.byteAt_registerBlock hstored hr (by omega)

end Sys2Proof.Machine
end

section
/-! PROOFS. Drawing in terms of hit counts: how often set sprite bits fall on each pixel says what every pixel becomes
and whether there was a collision, on a screen of any size, and two drawings in a row are one with the sum of their
hits (spec 44_display.md R135, R137). -/

namespace Sys2Proof.Machine

/-- How often set sprite bits fall on each pixel `(px, py)`. -/
abbrev HitCounts := Nat → Nat → Nat

/-- A pixel goes from 1 to 0 at some time while these hits fall: it is 1 and is hit, or it is hit twice (R137). -/
def Collides (c : Config) (hits : HitCounts) (f : Framebuffer) : Prop :=
  ∃ px py, px < c.width ∧ py < c.height ∧ ((f.get px py = true ∧ 1 ≤ hits px py) ∨ 2 ≤ hits px py)

/-- `k'` is what drawing with these hits makes of `k` (R137). -/
structure DrawnWith (c : Config) (hits : HitCounts) (k k' : Canvas) : Prop where
  size : k'.fb.wf c.width c.height = true
  pixel : ∀ px py, px < c.width → py < c.height →
    k'.fb.get px py = (k.fb.get px py ^^ (hits px py % 2 == 1))
  collision : k'.collision = true ↔ k.collision = true ∨ Collides c hits k.fb

theorem not_collides_zero (c : Config) (f : Framebuffer) : ¬Collides c 0 f := by
  simp [Collides]

theorem DrawnWith.refl {c : Config} {k : Canvas} (hk : k.fb.wf c.width c.height = true) : DrawnWith c 0 k k where
  size := hk
  pixel := by simp
  collision := by simp [not_collides_zero]

/-- A pixel collides under `m` hits or, as these leave it, under `n` more exactly when it does under all together. -/
theorem hit_add_iff (old : Bool) (m n : Nat) :
    ((old = true ∧ 1 ≤ m ∨ 2 ≤ m) ∨ ((old ^^ (m % 2 == 1)) = true ∧ 1 ≤ n ∨ 2 ≤ n)) ↔
      (old = true ∧ 1 ≤ m + n ∨ 2 ≤ m + n) := by
  obtain rfl | rfl | h : m = 0 ∨ m = 1 ∨ 2 ≤ m := by omega
  · simp
  · cases old
    · simp; omega
    · simp
  · simp [h, Nat.le_add_right_of_le h]

theorem collides_add_iff {c : Config} {f g : HitCounts} {k k' : Canvas} (h : DrawnWith c f k k') :
    Collides c f k.fb ∨ Collides c g k'.fb ↔ Collides c (f + g) k.fb := by
  constructor
  · rintro (⟨px, py, hx, hy, hit⟩ | ⟨px, py, hx, hy, hit⟩)
    · exact ⟨px, py, hx, hy, (hit_add_iff _ _ _).mp (.inl hit)⟩
    · rw [h.pixel px py hx hy] at hit
      exact ⟨px, py, hx, hy, (hit_add_iff _ _ _).mp (.inr hit)⟩
  · rintro ⟨px, py, hx, hy, hit⟩
    rw [Pi.add_apply, Pi.add_apply, ← hit_add_iff, ← h.pixel px py hx hy] at hit
    exact hit.imp (fun hit => ⟨px, py, hx, hy, hit⟩) fun hit => ⟨px, py, hx, hy, hit⟩

theorem odd_add_beq (m n : Nat) : ((m + n) % 2 == 1) = ((m % 2 == 1) ^^ (n % 2 == 1)) := by
  obtain hm | hm := Nat.mod_two_eq_zero_or_one m <;> obtain hn | hn := Nat.mod_two_eq_zero_or_one n <;>
    simp [Nat.add_mod, hm, hn]

/-- One drawing after another is one drawing with the hits of both. -/
theorem DrawnWith.trans {c : Config} {f g : HitCounts} {k k' k'' : Canvas} (h : DrawnWith c f k k')
    (h' : DrawnWith c g k' k'') : DrawnWith c (f + g) k k'' where
  size := h'.size
  pixel px py hx hy := by
    rw [h'.pixel px py hx hy, h.pixel px py hx hy, Bool.xor_assoc, ← odd_add_beq, Pi.add_apply, Pi.add_apply]
  collision := by rw [h'.collision, h.collision, or_assoc, collides_add_iff h]

end Sys2Proof.Machine
end

section
/-! PROOFS. What each operation of a draw hits, in the recursion of the drawing itself: one set bit, a row column by
column, the sprite row by row (spec 44_display.md R135, R137). -/

namespace Sys2Proof.Machine

theorem Config.wf_size {c : Config} (hc : c.wf = true) : 0 < c.width ∧ 0 < c.height := by
  simp only [Config.wf, Bool.and_eq_true, decide_eq_true_eq] at hc
  obtain ⟨hsize, -⟩ := hc
  exact hsize

/-- The hit of one set sprite bit at `(x, y)`, which wraps to its pixel (R135). -/
def pixelHits (c : Config) (x y : Nat) : HitCounts :=
  fun px py => if x % c.width = px ∧ y % c.height = py then 1 else 0

/-- Bit `col` of the sprite row `b` at `(x, y)` is set and falls on pixel `(px, py)` (R135). -/
def bitHits (c : Config) (x y : Nat) (b : Byte) (px py col : Nat) : Bool :=
  b.getLsbD (7 - col) && (x + col) % c.width == px && y % c.height == py

/-- The hits of these columns of the sprite row `b` at `(x, y)`. -/
def columnHits (c : Config) (x y : Nat) (b : Byte) (cols : List Nat) : HitCounts :=
  fun px py => cols.countP (bitHits c x y b px py)

theorem columnHits_cons (c : Config) (x y : Nat) (b : Byte) (col : Nat) (cols : List Nat) :
    columnHits c x y b (col :: cols) =
      (if b.getLsbD (7 - col) then pixelHits c (x + col) y else 0) + columnHits c x y b cols := by
  funext px py
  rw [columnHits, List.countP_cons, Nat.add_comm]
  cases hb : b.getLsbD (7 - col) <;> simp [columnHits, pixelHits, bitHits, hb]

/-- The hits of `n` rows, from row `r`, of the sprite `row` at `(x, y)`. -/
def rowHits (c : Config) (x y : Nat) (row : Nat → Byte) (r n : Nat) : HitCounts :=
  fun px py => ((List.range' r n).map fun i => columnHits c x (y + i) (row i) (List.range 8) px py).sum

theorem rowHits_succ (c : Config) (x y : Nat) (row : Nat → Byte) (r n : Nat) :
    rowHits c x y row r (n + 1) =
      columnHits c x (y + r) (row r) (List.range 8) + rowHits c x y row (r + 1) n := rfl

/-- The hit counts of `DXYN` are those of its sprite's rows, read from `I` upward (R125, R137). -/
theorem State.spriteHitCount_eq_rowHits (s : State) (x y : Reg) (n : Nibble) : s.spriteHitCount x y n =
    rowHits s.cfg (s.reg x).toNat (s.reg y).toNat (fun row => s.memRead (s.indexAddr row)) 0 n.toNat := by
  funext px py
  rw [rowHits, ← List.range_eq_range']
  rfl

section
variable {c : Config} (hc : c.wf = true)
include hc

theorem collides_pixelHits_iff (x y : Nat) (f : Framebuffer) :
    Collides c (pixelHits c x y) f ↔ f.get (x % c.width) (y % c.height) = true := by
  obtain ⟨hw, hh⟩ := Config.wf_size hc
  constructor
  · rintro ⟨px, py, -, -, hit⟩
    rw [pixelHits] at hit
    split at hit
    · next h =>
      obtain ⟨rfl, rfl⟩ := h
      simpa using hit
    · simp at hit
  · exact fun h => ⟨_, _, Nat.mod_lt _ hw, Nat.mod_lt _ hh, .inl ⟨h, by simp [pixelHits]⟩⟩

theorem drawPixel_drawnWith (x y : Nat) {k : Canvas} (hk : k.fb.wf c.width c.height = true) :
    DrawnWith c (pixelHits c x y) k (drawPixel c x y k) where
  size := drawPixel_wf x y hk
  pixel px py hx hy := by
    by_cases h : x % c.width = px ∧ y % c.height = py
    · obtain ⟨rfl, rfl⟩ := h
      simp [drawPixel, pixelHits, Framebuffer.get_set_self _ hk hx hy]
    · have hne : px ≠ x % c.width ∨ py ≠ y % c.height := by omega
      simp [drawPixel, pixelHits, h, Framebuffer.get_set_ne _ hne]
  collision := by simp [drawPixel, collides_pixelHits_iff hc]

theorem drawColumns_drawnWith (x y : Nat) (b : Byte) (cols : List Nat) : {k : Canvas} →
    k.fb.wf c.width c.height = true → DrawnWith c (columnHits c x y b cols) k
      (cols.foldl (fun k col => if b.getLsbD (7 - col) then drawPixel c (x + col) y k else k) k) := by
  induction cols with
  | nil => exact fun hk => .refl hk
  | cons col cols ih =>
    intro k hk
    rw [columnHits_cons, List.foldl_cons]
    split
    · have hbit := drawPixel_drawnWith hc (x + col) y hk
      exact hbit.trans (ih hbit.size)
    · rw [zero_add]
      exact ih hk

theorem drawRow_drawnWith (x y : Nat) (b : Byte) {k : Canvas} (hk : k.fb.wf c.width c.height = true) :
    DrawnWith c (columnHits c x y b (List.range 8)) k (drawRow c x y b k) :=
  drawColumns_drawnWith hc x y b _ hk

theorem drawRows_drawnWith (x y : Nat) (row : Nat → Byte) (n : Nat) : (r : Nat) → {k : Canvas} →
    k.fb.wf c.width c.height = true →
    DrawnWith c (rowHits c x y row r n) k (drawRows c x (y + r) ((List.range' r n).map row) k) := by
  induction n with
  | zero => exact fun _ _ hk => .refl hk
  | succ n ih =>
    intro r k hk
    rw [rowHits_succ]
    have hrow := drawRow_drawnWith hc x (y + r) (row r) hk
    exact hrow.trans (ih (r + 1) hrow.size)

end

/-- The canvas after the sprite is the one the hit counts of `DXYN` give (R137). -/
theorem State.drawSprite_drawnWith {s : State} (x y : Reg) (n : Nibble)
    (hfb : s.fb.wf s.cfg.width s.cfg.height = true) (hc : s.cfg.wf = true) :
    DrawnWith s.cfg (s.spriteHitCount x y n) { fb := s.fb, collision := false } (s.drawSprite x y n) := by
  rw [State.spriteHitCount_eq_rowHits, State.drawSprite, State.spriteRows, List.range_eq_range']
  exact drawRows_drawnWith hc _ _ _ _ 0 hfb

end Sys2Proof.Machine
end

section
/-! PROOFS. The state after `DXYN`, part by part, the frames of the display updates, and the redraw flag after a step
(spec 44_display.md R136, R137, R139). -/

namespace Sys2Proof.Machine

theorem State.setFb_sameExcept (s : State) (f : Framebuffer) : SameExcept [.display] s (s.setFb f) := by
  intro p hp
  cases p
  case display => simp at hp
  case memory | regs => exact fun _ => rfl
  all_goals rfl

theorem State.setRedraw_sameExcept (s : State) (b : Bool) : SameExcept [.redraw] s (s.setRedraw b) := by
  intro p hp
  cases p
  case redraw => simp at hp
  case memory | regs => exact fun _ => rfl
  all_goals rfl

/-- The state `DXYN` leaves (R137). -/
def State.drawn (s : State) (x y : Reg) (n : Nibble) : State :=
  (((s.setFb (s.drawSprite x y n).fb).setReg VF (collisionFlag (s.drawSprite x y n).collision)).setRedraw true).advance

theorem exec_opDXYN (s : State) (x y : Reg) (n : Nibble) : exec (.opDXYN x y n) s = .next (s.drawn x y n) := rfl

@[simp] theorem State.drawn_fb (s : State) (x y : Reg) (n : Nibble) :
    (s.drawn x y n).fb = (s.drawSprite x y n).fb := rfl
@[simp] theorem State.drawn_redraw (s : State) (x y : Reg) (n : Nibble) : (s.drawn x y n).redraw = true := rfl
@[simp] theorem State.drawn_I (s : State) (x y : Reg) (n : Nibble) : (s.drawn x y n).I = s.I := rfl
@[simp] theorem State.drawn_cfg (s : State) (x y : Reg) (n : Nibble) : (s.drawn x y n).cfg = s.cfg := rfl
@[simp] theorem State.drawn_byteAt (s : State) (x y : Reg) (n : Nibble) (a : Nat) :
    (s.drawn x y n).byteAt a = s.byteAt a := rfl

@[simp] theorem State.drawn_reg_VF (s : State) (x y : Reg) (n : Nibble) :
    (s.drawn x y n).reg VF = collisionFlag (s.drawSprite x y n).collision := by
  simp [State.drawn]

theorem State.drawn_reg_ne (s : State) (x y : Reg) (n : Nibble) {r : Reg} (hr : r ≠ VF) :
    (s.drawn x y n).reg r = s.reg r :=
  State.setReg_reg_ne _ VF r _ hr

theorem State.drawn_sameExcept (s : State) (x y : Reg) (n : Nibble) :
    SameExcept [.pc, .regs, .display, .redraw] s (s.drawn x y n) := by
  apply SameExcept.advance
  exact ((s.setFb_sameExcept _).mono (by simp)).trans
    (((State.setReg_sameExcept _ VF _).mono (by simp)).trans ((State.setRedraw_sameExcept _ true).mono (by simp)))

theorem collisionFlag_eq_one_iff (b : Bool) : collisionFlag b = 1#8 ↔ b = true := by
  cases b <;> decide

theorem State.drawn_reg_VF_cases (s : State) (x y : Reg) (n : Nibble) :
    (s.drawn x y n).reg VF = 0#8 ∨ (s.drawn x y n).reg VF = 1#8 := by
  rw [State.drawn_reg_VF]
  cases (s.drawSprite x y n).collision
  · exact .inl rfl
  · exact .inr rfl

section
variable {s : State} (x y : Reg) (n : Nibble) (hfb : s.fb.wf s.cfg.width s.cfg.height = true) (hc : s.cfg.wf = true)
include hfb hc

theorem State.drawn_get {px py : Nat} (hx : px < s.cfg.width) (hy : py < s.cfg.height) :
    (s.drawn x y n).fb.get px py = (s.fb.get px py ^^ (s.spriteHitCount x y n px py % 2 == 1)) :=
  (State.drawSprite_drawnWith x y n hfb hc).pixel px py hx hy

theorem State.drawn_reg_VF_eq_one_iff :
    (s.drawn x y n).reg VF = 1#8 ↔ Collides s.cfg (s.spriteHitCount x y n) s.fb := by
  rw [State.drawn_reg_VF, collisionFlag_eq_one_iff, (State.drawSprite_drawnWith x y n hfb hc).collision]
  simp

end

/-- The hits depend on the coordinates, not on the registers that hold them, and a draw changes nothing else they depend
on. -/
theorem State.drawn_spriteHitCount {s : State} {x y x' y' : Reg} (n : Nibble)
    (hx : (s.drawn x y n).reg x' = s.reg x) (hy : (s.drawn x y n).reg y' = s.reg y) :
    (s.drawn x y n).spriteHitCount x' y' n = s.spriteHitCount x y n := by
  have hhits : (s.drawn x y n).spriteHits x' y' = s.spriteHits x y := by
    funext px py row col
    simp only [State.spriteHits, State.drawn_byteAt, State.drawn_I, State.drawn_cfg, hx, hy]
  funext px py
  simp only [State.spriteHitCount, hhits]

/-- A step that fetched `00E0` or a `DXYN` leaves the redraw flag set (R139). -/
theorem step_redraw_of_fetches {s t : State} {i : Instr} (h : step s = .next t) (hi : Fetches s i)
    (hd : i = .op00E0 ∨ ∃ x y n, i = .opDXYN x y n) : t.redraw = true := by
  obtain ⟨j, u, hj, hu, rfl⟩ | ⟨op, hop, -, -⟩ := step_next_cases h
  · cases Fetches.unique hi hj
    simpa using (exec_effects hu).redraw hd
  · exact nomatch hi.symm.trans hop

end Sys2Proof.Machine
end

section
/-! PROOFS. Two facts about screens: the pixels determine a framebuffer of known size, and on a screen at least 8 wide
and 15 high no pixel is hit twice (spec 10_state.md R33, 44_display.md R138(c)). -/

namespace Sys2Proof.Machine

theorem Framebuffer.get_eq_getElem {f : Framebuffer} {x y : Nat} (hy : y < f.length) (hx : x < f[y].length) :
    f.get x y = f[y][x] := by
  rw [Framebuffer.get, List.getD_eq_getElem _ _ hy, List.getD_eq_getElem _ _ hx]

/-- Two framebuffers of one size with the same pixels are the same. -/
theorem Framebuffer.eq_of_get_eq {w h : Nat} {f g : Framebuffer} (hf : f.wf w h = true) (hg : g.wf w h = true)
    (e : ∀ x y, x < w → y < h → f.get x y = g.get x y) : f = g := by
  rw [Framebuffer.wf_iff] at hf hg
  obtain ⟨hfh, hfw⟩ := hf
  obtain ⟨hgh, hgw⟩ := hg
  refine List.ext_getElem (hfh.trans hgh.symm) fun y hy hy' => ?_
  have hfy := hfw _ (List.getElem_mem hy)
  have hgy := hgw _ (List.getElem_mem hy')
  refine List.ext_getElem (hfy.trans hgy.symm) fun x hx hx' => ?_
  rw [← Framebuffer.get_eq_getElem hy hx, ← Framebuffer.get_eq_getElem hy' hx']
  exact e x y (hfy ▸ hx) (hfh ▸ hy)

/-- In a list without duplicates at most one element has a property that only one can have. -/
theorem countP_le_one {α : Type} [DecidableEq α] {l : List α} {p : α → Bool} (hl : l.Nodup)
    (h : ∀ a ∈ l, ∀ b ∈ l, p a = true → p b = true → a = b) : l.countP p ≤ 1 := by
  rw [List.countP_eq_length_filter, ← List.toFinset_card_of_nodup (hl.filter p), Finset.card_le_one]
  simp only [List.mem_toFinset, List.mem_filter]
  exact fun a ⟨ha, hpa⟩ b ⟨hb, hpb⟩ => h a ha b hb hpa hpb

theorem countP_product {α β : Type} (l : List α) (m : List β) (p : α × β → Bool) :
    (l ×ˢ m).countP p = (l.map fun a => m.countP fun b => p (a, b)).sum := by
  induction l with
  | nil => rfl
  | cons a l ih => rw [List.product_cons, List.countP_append, List.countP_map, ih]; rfl

/-- Numbers less than `w` apart that agree modulo `w` are equal. -/
theorem eq_of_add_mod_eq {x i j w : Nat} (hi : i < w) (hj : j < w) (h : (x + i) % w = (x + j) % w) : i = j := by
  have hij : i % w = j % w := Nat.ModEq.add_left_cancel' x h
  rwa [Nat.mod_eq_of_lt hi, Nat.mod_eq_of_lt hj] at hij

theorem State.spriteHitCount_eq_countP (s : State) (x y : Reg) (n : Nibble) (px py : Nat) :
    s.spriteHitCount x y n px py =
      (List.range n.toNat ×ˢ List.range 8).countP fun p => s.spriteHits x y px py p.1 p.2 := by
  rw [countP_product]
  rfl

/-- On a large screen no two set bits of a sprite fall on one pixel (R138(c)). -/
theorem State.spriteHitCount_le_one {s : State} (hw : 8 ≤ s.cfg.width) (hh : 15 ≤ s.cfg.height) (x y : Reg)
    (n : Nibble) (px py : Nat) : s.spriteHitCount x y n px py ≤ 1 := by
  rw [State.spriteHitCount_eq_countP]
  refine countP_le_one (List.nodup_range.product List.nodup_range) ?_
  rintro ⟨row, col⟩ hmem ⟨row', col'⟩ hmem' hit hit'
  simp only [List.mem_product, List.mem_range] at hmem hmem'
  simp only [State.spriteHits, Bool.and_eq_true, beq_iff_eq] at hit hit'
  obtain ⟨⟨-, hcol⟩, hrow⟩ := hit
  obtain ⟨⟨-, hcol'⟩, hrow'⟩ := hit'
  have hn : n.toNat < 16 := n.isLt
  have erow : row = row' := eq_of_add_mod_eq (by omega) (by omega) (hrow.trans hrow'.symm)
  have ecol : col = col' := eq_of_add_mod_eq (by omega) (by omega) (hcol.trans hcol'.symm)
  rw [erow, ecol]

end Sys2Proof.Machine
end

section
/-! PROOFS. The statements about the display (spec 44_display.md), each from the lemmas above. -/

namespace Sys2Proof.Machine

/-- Settles O31: the screen is blank, and `redraw` and `pc` are all that is updated besides. -/
theorem clearScreenZeroesEveryPixel : Obligations.ClearScreenZeroesEveryPixel :=
  fun s => ⟨_, rfl, Framebuffer.get_blank _ _, Framebuffer.wf_blank _ _, rfl, .of_add rfl,
    (((s.setFb_sameExcept _).mono (by simp)).trans ((State.setRedraw_sameExcept _ true).mono (by simp))).advance⟩

/-- Settles O32: the drawing is the one its hit counts give. -/
theorem drawInvertsHitPixels : Obligations.DrawInvertsHitPixels :=
  fun x y n s hfb hc => ⟨_, exec_opDXYN s x y n, fun _ _ => State.drawn_get x y n hfb hc,
    s.drawn_reg_VF_cases x y n, rfl, fun _ => s.drawn_reg_ne x y n, .of_add rfl,
    s.drawSprite_wf x y n hfb, s.drawn_sameExcept x y n⟩

/-- Settles O33: where a pixel is hit at most once, one that was 1 is 0 afterwards exactly when it is hit. -/
theorem drawReportsCollision : Obligations.DrawReportsCollision := by
  intro x y n s hfb hc
  have hcollides := State.drawn_reg_VF_eq_one_iff x y n hfb hc
  refine ⟨_, exec_opDXYN s x y n, s.drawn_reg_VF_cases x y n, hcollides, fun hw hh => ?_⟩
  refine hcollides.trans (exists_congr fun px => exists_congr fun py => and_congr_right fun hx =>
    and_congr_right fun hy => ?_)
  have hone := State.spriteHitCount_le_one hw hh x y n px py
  rw [State.drawn_get x y n hfb hc hx hy]
  obtain e | e : s.spriteHitCount x y n px py = 0 ∨ s.spriteHitCount x y n px py = 1 := by omega
  · simp [e]
  · simp [e]

/-- Settles O34: the second draw has the hits of the first, so every pixel is inverted an even number of times. -/
theorem drawingTwiceRestoresTheScreen : Obligations.DrawingTwiceRestoresTheScreen := by
  intro x y n s hfb hc
  have hfb' : (s.drawn x y n).fb.wf s.cfg.width s.cfg.height = true := s.drawSprite_wf x y n hfb
  refine ⟨_, exec_opDXYN s x y n, fun x' y' hx' hy' => ?_⟩
  have hhits := State.drawn_spriteHitCount n hx' hy'
  refine ⟨_, exec_opDXYN _ x' y' n, ?_, ?_⟩
  · refine Framebuffer.eq_of_get_eq ((s.drawn x y n).drawSprite_wf x' y' n hfb') hfb fun px py hx hy => ?_
    rw [State.drawn_get x' y' n hfb' hc hx hy, hhits, State.drawn_get x y n hfb hc hx hy, Bool.xor_assoc,
      Bool.xor_self, Bool.xor_false]
  · rintro ⟨px, py, hx, hy, hoff, hon⟩
    have hodd := hon
    rw [State.drawn_get x y n hfb hc hx hy, hoff] at hodd
    refine (State.drawn_reg_VF_eq_one_iff x' y' n hfb' hc).mpr ⟨px, py, hx, hy, .inl ⟨hon, ?_⟩⟩
    rw [hhits]
    simp only [Bool.false_xor, beq_iff_eq] at hodd
    omega

/-- Settles O35: a step that draws sets the flag, none clears it, and any other leaves it alone. -/
theorem onlyDrawingSetsRedraw : Obligations.OnlyDrawingSetsRedraw := by
  intro s t h
  constructor
  · intro ht
    by_contra hn
    push Not at hn
    obtain ⟨hs, hcls, hdrw⟩ := hn
    exact hs ((step_display h hcls hdrw).2.symm.trans ht)
  · rintro (hs | hcls | ⟨x, y, n, hdrw⟩)
    · exact step_redraw_of_redraw h hs
    · exact step_redraw_of_fetches h hcls (.inl rfl)
    · exact step_redraw_of_fetches h hdrw (.inr ⟨x, y, n, rfl⟩)

end Sys2Proof.Machine
end

section
/-! PROOFS. The key a register selects, the key wait in both its cases, and the frames of the timer updates (spec
45_keypad_timers.md R140 to R147). -/

namespace Sys2Proof.Machine

/-- A register selects the key of its low four bits (R140). -/
theorem State.keyPressed_eq {s : State} {x k : Reg} (h : (s.reg x).toNat % 16 = k.val) :
    s.keyPressed x = s.keypad[k] := by
  obtain rfl : keyNumber (s.reg x) = k := Fin.ext ((keyNumber_val _).trans h)
  rfl

/-- A key wait completes: in place while no key is pressed, and otherwise with the number of a pressed key, the lowest
under the default policy (R144, R147). -/
theorem exec_opFX0A_cases (x : Reg) (s : State) :
    ((∀ k : Reg, s.keypad[k] = false) ∧ exec (.opFX0A x) s = .next s) ∨
    (∃ k : Reg, s.keypad[k] = true ∧ (s.cfg.keyPolicy = .lowest → ∀ j : Reg, j < k → s.keypad[j] = false) ∧
      exec (.opFX0A x) s = .next (s.setReg x (BitVec.ofNat 8 k.val)).advance) := by
  rw [exec, execFX0A]
  obtain ⟨e, hnone⟩ | ⟨k, e, hk, hlow⟩ := keySelect_cases s.cfg.keyPolicy s.keypad <;> rw [e]
  · exact .inl ⟨hnone, rfl⟩
  · exact .inr ⟨k, hk, hlow, rfl⟩

theorem exec_opFX0A_of_no_key (x : Reg) {s : State} (h : ∀ k : Reg, s.keypad[k] = false) :
    exec (.opFX0A x) s = .next s := by
  obtain ⟨-, e⟩ | ⟨k, hk, -, -⟩ := exec_opFX0A_cases x s
  · exact e
  · exact nomatch (h k).symm.trans hk

/-- A key's number fits a register. -/
theorem keyByte_toNat (k : Reg) : (BitVec.ofNat 8 k.val).toNat = k.val :=
  Nat.mod_eq_of_lt (k.isLt.trans (by decide))

theorem State.setDelay_sameExcept (s : State) (b : Byte) : SameExcept [.delay] s (s.setDelay b) := by
  intro p hp
  cases p
  case delay => simp at hp
  case memory | regs => exact fun _ => rfl
  all_goals rfl

theorem State.setSound_sameExcept (s : State) (b : Byte) : SameExcept [.sound] s (s.setSound b) := by
  intro p hp
  cases p
  case sound => simp at hp
  case memory | regs => exact fun _ => rfl
  all_goals rfl

/-- Forgetting the last step's events changes nothing else (R170). -/
theorem State.forgotten_sameExcept (s : State) : SameExcept [.diagnostics] s s.forgotten := by
  intro p hp
  cases p
  case diagnostics => simp at hp
  case memory | regs => exact fun _ => rfl
  all_goals rfl

/-- A step whose execute phase changes nothing forgets the events and ticks (R94). -/
theorem State.forgotten_timerPhase_sameExcept (s : State) :
    SameExcept [.delay, .sound, .beep, .diagnostics] s s.forgotten.timerPhase :=
  (s.forgotten_sameExcept.mono (by simp)).trans (s.forgotten.timerPhase_sameExcept.mono (by simp))

end Sys2Proof.Machine
end

section
/-! PROOFS. The statements about the keypad and the timers (spec 45_keypad_timers.md), each from the lemmas above. -/

namespace Sys2Proof.Machine

/-- Settles O36: each meaning is a skip on the state of the selected key. -/
theorem keySkipsFollowTheKey : Obligations.KeySkipsFollowTheKey := by
  intro x k s h
  have hkey := State.keyPressed_eq h
  exact ⟨skipsWhen_of_skipIf rfl (by rw [hkey]), skipsWhen_of_skipIf rfl (by rw [hkey, Bool.not_eq_true'])⟩

/-- Settles O37: the waiting step is a tick in place, and a taken key is one register write. -/
theorem keyWaitTakesAPressedKey : Obligations.KeyWaitTakesAPressedKey := by
  intro x s
  constructor
  · intro hnone
    refine ⟨exec_opFX0A_of_no_key x hnone, fun hfetch => ⟨s.forgotten.timerPhase, ?_, tickDelay_toNat s.delay,
      tickDelay_toNat s.sound, rfl, s.forgotten_timerPhase_sameExcept⟩⟩
    rw [step_of_fetches hfetch, exec_opFX0A_of_no_key x (s := s.forgotten) hnone, completeStep]
  · intro j hj
    obtain ⟨hnone, -⟩ | ⟨k, hk, hlow, e⟩ := exec_opFX0A_cases x s
    · exact nomatch (hnone j).symm.trans hj
    · exact ⟨k, hk, hlow, writesOneReg_of_setReg e (keyByte_toNat k)⟩

/-- Settles O38: each meaning is one write, and the timer phase comes after it. -/
theorem delayIsReadAndSetBeforeItTicks : Obligations.DelayIsReadAndSetBeforeItTicks := by
  intro x s
  refine ⟨writesOneReg_of_setReg rfl rfl, fun hfetch => ?_, ?_, fun hfetch => ?_⟩
  · exact ⟨_, step_of_fetches hfetch, s.forgotten.setReg_reg_self x s.delay, tickDelay_toNat s.delay⟩
  · exact ⟨_, rfl, rfl, .of_add rfl, (s.setDelay_sameExcept _).advance⟩
  · exact ⟨_, step_of_fetches hfetch, tickDelay_toNat (s.reg x)⟩

/-- Settles O39: the meaning is one write of `sound`, and the timer phase after it beeps if that left 1. -/
theorem soundIsSetThenTicks : Obligations.SoundIsSetThenTicks := by
  intro x s
  refine ⟨⟨_, rfl, rfl, .of_add rfl, (s.setSound_sameExcept _).advance⟩, fun hfetch => ?_⟩
  exact ⟨_, step_of_fetches hfetch, tickDelay_toNat (s.reg x),
    (s.forgotten.setSound (s.reg x)).advance.timerPhase_beep_iff⟩

end Sys2Proof.Machine
end

section
/-! PROOFS. The frames of the host's operations: which parts of the state each may change (spec 47_host_operations.md
R160, R161). -/

namespace Sys2Proof.Machine

theorem State.setKeys_sameExcept (s : State) (k : Vector Bool 16) : SameExcept [.keypad] s (s.setKeys k) := by
  intro p hp
  cases p
  case keypad => simp at hp
  case memory | regs => exact fun _ => rfl
  all_goals rfl

theorem State.setBeep_sameExcept (s : State) (b : Bool) : SameExcept [.beep] s (s.setBeep b) := by
  intro p hp
  cases p
  case beep => simp at hp
  case memory | regs => exact fun _ => rfl
  all_goals rfl

theorem State.setMem_sameExcept (s : State) (m : Memory) : SameExcept [.memory] s (s.setMem m) := by
  intro p hp
  cases p
  case memory => simp at hp
  case regs => exact fun _ => rfl
  all_goals rfl

theorem State.pokeBytes_sameExcept (s : State) (a : Nat) (bytes : List Byte) :
    SameExcept [.memory] s (s.pokeBytes a bytes) := by
  rw [State.pokeBytes_eq]
  exact s.setMem_sameExcept _

theorem SameExcept.refl (changed : List Part) (s : State) : SameExcept changed s s := by
  intro p _
  cases p
  case memory | regs => exact fun _ => rfl
  all_goals rfl

/-- The parts of the state a host operation may change; the step alone owns more than one. -/
def HostOp.mayChange : HostOp → List Part
  | .loadProgram _ => [.memory]
  | .step => [.memory, .regs, .index, .pc, .stackEntries, .stackDepth, .delay, .sound, .display, .redraw, .beep,
      .random, .diagnostics]
  | .setKeypad _ => [.keypad]
  | .clearRedraw | .takeRedrawFlag => [.redraw]
  | .pendingBeep => [.beep]
  | .framebuffer | .pixelAt _ _ | .getRedraw => []

theorem callLoad_sameExcept (bytes : List Byte) (s : State) : SameExcept [.memory] s (callLoad bytes s).1 := by
  obtain ⟨-, e⟩ | ⟨-, e⟩ := callLoad_cases bytes s <;> rw [e]
  · exact s.pokeBytes_sameExcept _ bytes
  · exact .refl _ s

theorem callStep_sameExcept (s : State) : SameExcept HostOp.step.mayChange s (callStep s).1 := by
  obtain ⟨t, h, e⟩ | ⟨f, -, e⟩ | ⟨r, -, e⟩ := callStep_cases s <;> rw [e]
  · intro p hp
    cases p
    case keypad => exact step_keypad h
    case config => exact step_cfg h
    all_goals simp [HostOp.mayChange] at hp
  · exact .refl _ s
  · exact .refl _ s

/-- Outside the step each part that may change has its own operation. -/
theorem HostOp.mem_mayChange_cases {op : HostOp} {p : Part} (hp : p ∈ op.mayChange) :
    op = .step ∨ (∃ bytes, op = .loadProgram bytes ∧ p = .memory) ∨
    (∃ snapshot, op = .setKeypad snapshot ∧ p = .keypad) ∨
    ((op = .clearRedraw ∨ op = .takeRedrawFlag) ∧ p = .redraw) ∨ (op = .pendingBeep ∧ p = .beep) := by
  cases op with
  | step => exact .inl rfl
  | framebuffer | pixelAt x y | getRedraw => exact absurd hp List.not_mem_nil
  | loadProgram _ | setKeypad _ | clearRedraw | takeRedrawFlag | pendingBeep =>
    obtain rfl := List.mem_singleton.mp hp
    simp

/-- The frame of every host operation, the step's included (R160, R161). -/
theorem hostCall_sameExcept (op : HostOp) (s : State) : SameExcept op.mayChange s (hostCall op s).1 := by
  cases op with
  | loadProgram bytes => exact callLoad_sameExcept bytes s
  | step => exact callStep_sameExcept s
  | setKeypad snapshot => exact s.setKeys_sameExcept snapshot
  | clearRedraw | takeRedrawFlag => exact s.setRedraw_sameExcept false
  | pendingBeep => exact s.setBeep_sameExcept false
  | framebuffer | pixelAt x y | getRedraw => exact .refl _ s

end Sys2Proof.Machine
end

section
/-! PROOFS. The core after a load (spec 47_host_operations.md R151): no address of the program region wraps. -/

namespace Sys2Proof.Machine

theorem loadProgram_of_fits {bytes : List Byte} (h : bytes.length ≤ 3584) (s : State) :
    loadProgram bytes s = .ok (s.pokeBytes 0x200 bytes) :=
  if_pos (decide_eq_true h)

theorem loadProgram_of_too_large {bytes : List Byte} (h : 3584 < bytes.length) (s : State) :
    loadProgram bytes s = .error .programTooLarge :=
  if_neg (by simpa [programFits] using h)

/-- No address of the program region is reduced, so a program that fits is found byte by byte from 0x200 up (R151). -/
theorem State.pokeBytes_program (s : State) (hwf : s.memWf = true) {bytes : List Byte} (hlen : bytes.length ≤ 3584)
    {i : Nat} (h : i < bytes.length) : (s.pokeBytes 0x200 bytes).byteAt (0x200 + i) = bytes[i] := by
  have hcell : cellOf (0x200 + i) = 0x200 + i := Nat.mod_eq_of_lt (by simp only [Config.memSize]; omega)
  rw [← hcell]
  exact s.pokeBytes_read 0x200 bytes hwf (by omega) i h

theorem State.pokeBytes_outside_program (s : State) {bytes : List Byte} (hlen : bytes.length ≤ 3584) {a : Nat}
    (ha : a < 0x200 ∨ 0x200 + bytes.length ≤ a) : (s.pokeBytes 0x200 bytes).byteAt a = s.byteAt a := by
  refine s.pokeBytes_read_other 0x200 bytes fun k hk => ?_
  simp only [cellOf, Config.memSize]
  omega

/-- A core about to fetch at 0x200 fetches the first two bytes of the program just loaded (R53, R151). -/
theorem State.pokeBytes_fetchWord (s : State) (hwf : s.memWf = true) {hi lo : Byte} {rest : List Byte}
    (hlen : (hi :: lo :: rest).length ≤ 3584) (hpc : s.pc = 0x200#16) :
    (s.pokeBytes 0x200 (hi :: lo :: rest)).fetchWord = wordOfBytes hi lo := by
  have hpc' : (s.pokeBytes 0x200 (hi :: lo :: rest)).pc = 0x200#16 :=
    (s.pokeBytes_sameExcept _ _ .pc (by simp)).trans hpc
  have hhi := s.pokeBytes_program hwf hlen (i := 0) (by simp)
  have hlo := s.pokeBytes_program hwf hlen (i := 1) (by simp)
  rw [State.fetchWord, hpc']
  exact congrArg₂ wordOfBytes hhi hlo

end Sys2Proof.Machine
end

section
/-! PROOFS. The framebuffer as one row-major list (spec 10_state.md R33; 47_host_operations.md R154). -/

namespace Sys2Proof.Machine

variable {w h : Nat} {f : Framebuffer}

theorem Framebuffer.length_flatten (hf : f.wf w h = true) : f.flatten.length = w * h := by
  obtain ⟨hh, hw⟩ := Framebuffer.wf_iff.mp hf
  rw [List.length_flatten, List.map_congr_left hw, List.map_const', List.sum_replicate, hh, smul_eq_mul, Nat.mul_comm]

/-- In a list of rows of one length, concatenated, the rows before row `y` fill `y * w` places. -/
theorem getElem?_flatten_of_rows {α : Type} {x : Nat} (hx : x < w) (rows : List (List α)) :
    (∀ row ∈ rows, row.length = w) → ∀ y, rows.flatten[y * w + x]? = rows[y]?.bind (·[x]?) := by
  induction rows with
  | nil => exact fun _ _ => rfl
  | cons row rows ih =>
    intro hrows y
    obtain ⟨hrow, hrest⟩ := List.forall_mem_cons.mp hrows
    rw [List.flatten_cons]
    cases y with
    | zero => rw [List.getElem?_append_left (by omega)]; simp
    | succ y =>
      rw [List.getElem?_append_right (by rw [hrow, Nat.succ_mul]; omega),
        show (y + 1) * w + x - row.length = y * w + x by rw [hrow, Nat.succ_mul]; omega, ih hrest]
      rfl

/-- Pixel `(x, y)` is element `y * w + x` of the row-major sequence (R33). -/
theorem Framebuffer.getElem?_flatten (hf : f.wf w h = true) {x y : Nat} (hx : x < w) (hy : y < h) :
    f.flatten[y * w + x]? = some (f.get x y) := by
  obtain ⟨hh, hw⟩ := Framebuffer.wf_iff.mp hf
  have hy' : y < f.length := hh ▸ hy
  have hx' : x < f[y].length := hw _ (List.getElem_mem hy') ▸ hx
  rw [getElem?_flatten_of_rows hx f hw, List.getElem?_eq_getElem hy', Option.bind_some,
    List.getElem?_eq_getElem hx', Framebuffer.get_eq_getElem hy' hx']

end Sys2Proof.Machine
end

section
/-! PROOFS. The statements about the host's operations (spec 47_host_operations.md), each from the lemmas above. -/

namespace Sys2Proof.Machine

/-- Settles O43: a program that fits is a sequence of direct writes that do not wrap, any other is refused. -/
theorem loadWritesTheProgramRegion : Obligations.LoadWritesTheProgramRegion := by
  intro bytes s hwf
  constructor
  · intro hlarge
    have hload := loadProgram_of_too_large hlarge s
    exact ⟨hload, by rw [hostCall, callLoad, hload]⟩
  · intro hlen
    have hload := loadProgram_of_fits hlen s
    refine ⟨_, hload, by rw [hostCall, callLoad, hload], fun i h => s.pokeBytes_program hwf hlen h,
      fun a ha => s.pokeBytes_outside_program hlen ha, ?_, s.pokeBytes_sameExcept _ bytes⟩
    rintro hi lo rest rfl hpc
    rw [s.pokeBytes_fetchWord hwf hlen hpc, wordOfBytes_toNat]

/-- Settles O44: one update of the keypad. -/
theorem setKeypadReplacesTheSnapshot : Obligations.SetKeypadReplacesTheSnapshot :=
  fun snapshot s => ⟨_, rfl, fun _ => rfl, s.setKeys_sameExcept snapshot⟩

/-- Settles O45: the reply is the concatenation of the rows. -/
theorem framebufferIsRowMajor : Obligations.FramebufferIsRowMajor :=
  fun _ hfb => ⟨_, rfl, Framebuffer.length_flatten hfb, fun _ _ hx hy => Framebuffer.getElem?_flatten hfb hx hy⟩

/-- Settles O46: on a screen with a pixel the reduced coordinates lie on the screen. -/
theorem pixelQueryWraps : Obligations.PixelQueryWraps := by
  intro x y s hfb hc
  obtain ⟨hw, hh⟩ := Config.wf_size hc
  exact ⟨_, rfl, Framebuffer.getElem?_flatten hfb (Nat.mod_lt x hw) (Nat.mod_lt y hh)⟩

/-- Settles O47: each take answers the old flag and is one update of it. -/
theorem flagsAreReadAndCleared : Obligations.FlagsAreReadAndCleared :=
  fun s => ⟨rfl, ⟨_, rfl, rfl, s.setRedraw_sameExcept false⟩, ⟨_, rfl, rfl, s.setRedraw_sameExcept false, rfl⟩,
    ⟨_, rfl, rfl, s.setBeep_sameExcept false, rfl⟩⟩

/-- Settles O49: an operation changes only parts it owns, and outside the step each part has its own operation. -/
theorem hostOperationsTouchOnlyTheirOwnParts : Obligations.HostOperationsTouchOnlyTheirOwnParts := by
  intro op s hstep
  have hframe := hostCall_sameExcept op s
  have howner {p : Part} (hp : p ∈ op.mayChange) := (HostOp.mem_mayChange_cases hp).resolve_left hstep
  refine ⟨hframe.mono fun p hp => ?_, fun hload => hframe .memory fun hp => ?_,
    fun hkeys => hframe .keypad fun hp => ?_,
    fun hclear htake => hframe .redraw fun hp => ?_, fun hbeep => hframe .beep fun hp => ?_⟩
  · obtain ⟨-, -, rfl⟩ | ⟨-, -, rfl⟩ | ⟨-, rfl⟩ | ⟨-, rfl⟩ := howner hp <;> simp
  · simpa [hload] using howner hp
  · simpa [hkeys] using howner hp
  · simpa [hclear, htake] using howner hp
  · simpa [hbeep] using howner hp

end Sys2Proof.Machine
end

section
/-! PROOFS. Faults (spec 60_exceptions.md R165 to R169): when an execute phase and a step answer with one, and what the
host sees of a step that does. -/

namespace Sys2Proof.Machine

/-- Every execute phase completes, but for a call on a full stack and a return on an empty one (R101, R103). -/
theorem exec_cases (i : Instr) (s : State) : (∃ t, exec i s = .next t) ∨
    (∃ nnn, i = .op2NNN nnn ∧ s.sp.val = 16 ∧ exec i s = .fault (.stackOverflow s.pc)) ∨
    (i = .op00EE ∧ s.sp.val = 0 ∧ exec i s = .fault (.stackUnderflow s.pc)) := by
  cases i
  case op00EE =>
    obtain ⟨hempty, e⟩ | ⟨n, hn, -, e⟩ := s.pop_cases fun v t => .next (t.setPc (v + 2#16))
    · exact .inr (.inr ⟨rfl, hempty, e⟩)
    · exact .inl ⟨_, e⟩
  case op2NNN nnn =>
    obtain ⟨hfull, e⟩ | ⟨hn, e⟩ := s.push_cases s.pc fun t => .next (t.setPc nnn.zext)
    · exact .inr (.inl ⟨nnn, rfl, hfull, e⟩)
    · exact .inl ⟨_, e⟩
  case opFX0A x =>
    obtain ⟨-, e⟩ | ⟨k, -, -, e⟩ := exec_opFX0A_cases x s <;> exact .inl ⟨_, e⟩
  all_goals exact .inl ⟨_, rfl⟩

theorem exec_ne_refused (i : Instr) (s : State) (r : Refusal) : exec i s ≠ .refused r := by
  obtain ⟨t, e⟩ | ⟨nnn, -, -, e⟩ | ⟨-, -, e⟩ := exec_cases i s <;> simp [e]

theorem exec_fault_iff {i : Instr} {s : State} {f : Fault} : exec i s = .fault f ↔
    (f = .stackOverflow s.pc ∧ s.sp.val = 16 ∧ ∃ nnn, i = .op2NNN nnn) ∨
    (f = .stackUnderflow s.pc ∧ s.sp.val = 0 ∧ i = .op00EE) := by
  constructor
  · intro h
    obtain ⟨t, e⟩ | ⟨nnn, hi, hfull, e⟩ | ⟨hi, hempty, e⟩ := exec_cases i s <;> cases e.symm.trans h
    · exact .inl ⟨rfl, hfull, nnn, hi⟩
    · exact .inr ⟨rfl, hempty, hi⟩
  · rintro (⟨rfl, hfull, nnn, rfl⟩ | ⟨rfl, hempty, rfl⟩)
    · exact exec_call_of_full nnn hfull
    · exact (returnPopsAndAddsTwo s).1 hempty

/-- The decoder answers every word with an instruction, or with the word itself (R74). -/
theorem decodeWord_cases (op : Word) : (∃ i, decodeWord op = .instr i) ∨ decodeWord op = .unknown op := by
  cases h : decodeWord op with
  | instr i => exact .inl ⟨i, rfl⟩
  | unknown w => exact .inr (congrArg _ (eq_of_decodeWord_unknown h))

theorem step_ne_refused (s : State) (r : Refusal) : step s ≠ .refused r := by
  obtain ⟨i, hi⟩ | hop := decodeWord_cases s.fetchWord
  · rw [step_of_fetches hi, Ne, completeStep_refused]
    exact exec_ne_refused i _ r
  · obtain ⟨-, e⟩ | ⟨-, e⟩ := step_unknown_cases hop <;> simp [e]

/-- A step at an instruction faults exactly as its execute phase does (R96). -/
theorem step_fault_iff_of_fetches {s : State} {i : Instr} {f : Fault} (hi : Fetches s i) : step s = .fault f ↔
    (f = .stackOverflow s.pc ∧ s.sp.val = 16 ∧ ∃ nnn, i = .op2NNN nnn) ∨
    (f = .stackUnderflow s.pc ∧ s.sp.val = 0 ∧ i = .op00EE) := by
  rw [step_of_fetches hi, completeStep_fault]
  exact exec_fault_iff

/-- A step at an unknown word faults exactly in strict mode (R95). -/
theorem step_fault_iff_of_unknown {s : State} {op : Word} {f : Fault} (hop : decodeWord s.fetchWord = .unknown op) :
    step s = .fault f ↔ f = .illegalOpcode s.pc op ∧ s.cfg.illegalMode = .strict := by
  obtain ⟨hm, e⟩ | ⟨hm, e⟩ := step_unknown_cases hop <;> simp [e, hm, eq_comm]

/-- A host operation that leaves a state as it was answers the same however often it is called (R169). -/
theorem runSession_replicate_of_fixed {op : HostOp} {s : State} {r : HostReply} (h : hostCall op s = (s, r))
    (n : Nat) : runSession (List.replicate n op) s = (s, List.replicate n r) := by
  induction n with
  | zero => rfl
  | succ n ih => simp only [List.replicate_succ, runSession, h, ih]

end Sys2Proof.Machine
end

section
/-! PROOFS. Diagnostics (spec 60_exceptions.md R170): the events of a sequence of stores and of an execute phase. -/

namespace Sys2Proof.Machine

/-- Every store reports at most one event (R54). -/
theorem length_flatMap_reservedEvents_le (pc : Word) (addrs : List Nat) :
    (addrs.flatMap (reservedEvents pc)).length ≤ addrs.length := by
  rw [flatMap_reservedEvents, List.length_map, ← addrs.length_map (f := cellOf)]
  exact List.length_filter_le ..

/-- Stores report only addresses below 0x200, all with the same `pc` (R54). -/
theorem eq_reservedWrite_of_mem {pc : Word} {addrs : List Nat} {d : Diagnostic}
    (hd : d ∈ addrs.flatMap (reservedEvents pc)) : ∃ a : Addr, a.toNat < 0x200 ∧ d = .reservedWrite pc a := by
  rw [flatMap_reservedEvents] at hd
  obtain ⟨a, ha, rfl⟩ := List.mem_map.mp hd
  have hlow : a < 0x200 := of_decide_eq_true (List.mem_filter.mp ha).2
  exact ⟨BitVec.ofNat 12 a, by rw [BitVec.toNat_ofNat]; omega, rfl⟩

/-- The events of a completed execute phase that began with none (R170). -/
theorem exec_events_cases {i : Instr} {s t : State} (h : exec i s = .next t) (hnone : s.diagnostics = []) :
    t.diagnostics = [] ∨
    (t.diagnostics.length ≤ 16 ∧ (∃ x, i = .opFX33 x ∨ i = .opFX55 x) ∧
      ∀ d ∈ t.diagnostics, ∃ a : Addr, a.toNat < 0x200 ∧ d = .reservedWrite s.pc a) := by
  by_cases hstore : ∃ x, i = .opFX33 x ∨ i = .opFX55 x
  · obtain ⟨n, hn, hevents⟩ := (exec_effects h).events hstore
    rw [hnone, List.nil_append] at hevents
    rw [hevents]
    refine .inr ⟨?_, hstore, fun d => eq_reservedWrite_of_mem⟩
    calc ((List.range' s.I.toNat n).flatMap (reservedEvents s.pc)).length
        ≤ (List.range' s.I.toNat n).length := length_flatMap_reservedEvents_le ..
      _ = n := List.length_range'
      _ ≤ 16 := hn
  · push Not at hstore
    exact .inl (((exec_effects h).memory (fun x => (hstore x).1) fun x => (hstore x).2).2.trans hnone)

end Sys2Proof.Machine
end

section
/-! PROOFS. The statements about faults and diagnostics (spec 60_exceptions.md), each from the lemmas above. -/

namespace Sys2Proof.Machine

/-- Settles O50, by what the fetched word decodes to. -/
theorem stepFaultsExactlyThen : Obligations.StepFaultsExactlyThen := by
  refine fun s => ⟨step_ne_refused s, fun f => ?_⟩
  obtain ⟨i, hi⟩ | hop := decodeWord_cases s.fetchWord
  · simp [step_fault_iff_of_fetches hi, Fetches, hi]
  · simp [step_fault_iff_of_unknown hop, Fetches, hop]

/-- Settles O51: the host's call leaves the state where it was, so each further call is the same call. -/
theorem faultChangesNothingAndRepeats : Obligations.FaultChangesNothingAndRepeats := by
  intro s f h
  have hcall : hostCall .step s = (s, .faulted f) := by rw [hostCall, callStep, h]
  exact ⟨hcall, runSession_replicate_of_fixed hcall⟩

/-- Settles O52: the events of the execute phase, which starts with none, or the one of an unknown opcode. -/
theorem stepReportsOnlyTheseEvents : Obligations.StepReportsOnlyTheseEvents := by
  intro s t h
  obtain ⟨i, hi⟩ | hop := decodeWord_cases s.fetchWord
  · rw [step_of_fetches hi] at h
    obtain ⟨u, hu, rfl⟩ := completeStep_next.mp h
    obtain hnone | ⟨hlen, ⟨x, hx⟩, hevents⟩ := exec_events_cases hu rfl
    · exact .inl hnone
    · exact .inr (.inr ⟨hlen, ⟨x, by simpa [Fetches, hi] using hx⟩, hevents⟩)
  · obtain ⟨hm, e⟩ | ⟨-, e⟩ := step_unknown_cases hop <;> cases e.symm.trans h
    exact .inr (.inl ⟨rfl, hm, hop⟩)

end Sys2Proof.Machine
end

section
/-! PROOFS. The values construction chooses (spec 10_state.md R36, the spec's D12), one lemma for each part of the state
that has elements. -/

namespace Sys2Proof.Machine

section
variable (c : Config) (injected : List Byte)

@[simp] theorem State.new_reg (r : Reg) : (State.new c injected).reg r = 0#8 :=
  Vector.getElem_replicate r.isLt

theorem State.new_keypad (k : Reg) : (State.new c injected).keypad[k] = false :=
  Vector.getElem_replicate k.isLt

theorem State.new_stack (j : Fin 16) : (State.new c injected).stack[j] = 0#16 :=
  Vector.getElem_replicate j.isLt

/-- The first framebuffer is the one the clear instruction leaves (R36, R136). -/
@[simp] theorem State.new_fb : (State.new c injected).fb = Framebuffer.blank c.width c.height := rfl

end

/-- Settles O42: reset is a construction with this core's parameters, and the parts without elements are its fields. -/
theorem resetChoosesZeros : Obligations.ResetChoosesZeros := by
  have hpixel (x y : Nat) : State.reset.fb.get x y = false := by
    rw [State.reset, State.new_fb, Framebuffer.get_blank]
  exact ⟨State.new_reg _ _, rfl, rfl, rfl, State.new_keypad _ _, State.new_stack _ _, hpixel,
    rfl, rfl, rfl, rfl, rfl, rfl⟩

end Sys2Proof.Machine
end
